-- ==== Sys2Proof/Word.lean ====
section
/-! DEFINITION. The word types of the spec and their plainest arithmetic (spec/00_scope.md R12, R6 `W = 32`). -/

namespace Sys2Proof

/-- An output word, a GPIO mask, a timer count, a response: 32 bits, bit `i` is GPIO pin `i` (R12, R62, R91). -/
abbrev Word := BitVec 32

/-- A command word of the command port: 64 bits (R95). -/
abbrev CmdWord := BitVec 64

/-- A frame id: 4 bits, `0xF` is the null frame (R95, R99). -/
abbrev FrameId := BitVec 4

/-- `bit(i)`, the word `2^i` (R12). -/
abbrev bit (i : Nat) : Word := BitVec.twoPow 32 i

end Sys2Proof
end

