-- ==== Sys2Proof/Config.lean ====
section
/-! DEFINITION. What an implementation fixes (the configuration record of spec/00_scope.md R6 to R9 and R46) and the free
values: constants without a body, applied to the plain counter `freeCount` of the state. Which records are legal is
`Config.legal` in WellFormed.lean. -/

namespace Sys2Proof

/-- The four agents of the block and the external producer (R10). -/
inductive Agent where
  /-- `HOST`, the producer: presents command words (R94). -/
  | host
  /-- `CMD`, the command executor (R94). -/
  | cmd
  /-- `SEQ`, the refresh context (R164). -/
  | seq
  /-- `PT`, the pulse timer counting (R200). -/
  | pt
  /-- `T1M`, the free-running 1 MHz counter (R258). -/
  | t1m
  deriving DecidableEq, Repr, Inhabited

/-- The parameters of R6 (structure), R7 (timing) and R8 (pins). None of them is state; the state carries the record as a
constant field because `step` takes nothing but the state (log entry 3). -/
structure Config where
  /-- `ROWS`: rows of the panel. -/
  rows : Nat
  /-- `COLUMNS`: columns of the panel. -/
  columns : Nat
  /-- `PARALLEL`: the parallel-chain count, 1 only (D8, U5). -/
  parallel : Nat
  /-- `N`: the number of bitplanes. -/
  n : Nat
  /-- `NUM_FRAMES`: the size of the Frame Set. -/
  numFrames : Nat
  /-- `BASE_TICKS`: `base_time` in timer ticks. -/
  baseTicks : Nat
  /-- `PT_WIDTH_LIMIT`: a duration strictly greater is split. -/
  widthLimit : Nat
  /-- `SPLIT_FACTOR`: the number of equal entries a long duration is split into, 8. -/
  splitFactor : Nat
  /-- `FIFO_DEPTH`: the capacity of the timer FIFO. -/
  fifoDepth : Nat
  /-- `PIN_R1`, `PIN_G1`, `PIN_B1`: the colour lines of the upper half-panel. -/
  pinR1 : Nat
  pinG1 : Nat
  pinB1 : Nat
  /-- `PIN_R2`, `PIN_G2`, `PIN_B2`: the colour lines of the lower half-panel. -/
  pinR2 : Nat
  pinG2 : Nat
  pinB2 : Nat
  /-- `OE_ACTIVE_LEVEL`: the level of pin 18 while the output window is open (D7). -/
  oeActiveLevel : Bool
  deriving DecidableEq, Repr

/-- `HALF = ROWS / 2` (R6). -/
abbrev Config.half (c : Config) : Nat := c.rows / 2

/-- `TOTAL_ROWS = ROWS * PARALLEL` (R6). -/
abbrev Config.totalRows (c : Config) : Nat := c.rows * c.parallel

/-- `FRAME_WORDS = HALF * N * COLUMNS` (R6). -/
abbrev Config.frameWords (c : Config) : Nat := c.half * c.n * c.columns

/-- The size of frame memory in words, `NUM_FRAMES * FRAME_WORDS` (R60). -/
abbrev Config.memWords (c : Config) : Nat := c.numFrames * c.frameWords

/-- The defaults of R6 to R8. `BASE_TICKS` and `PT_WIDTH_LIMIT` have no default in R7 (they are OPEN); 1 and 15 are the values
the spec's test vectors use.
DESIGN CHOICE (log entry 4), unsafe: a claim about this record alone is not a claim about every installation. -/
def Config.standard : Config where
  rows := 16
  columns := 32
  parallel := 1
  n := 11
  numFrames := 2
  baseTicks := 1
  widthLimit := 15
  splitFactor := 8
  fifoDepth := 10
  pinR1 := 11
  pinG1 := 27
  pinB1 := 7
  pinR2 := 8
  pinG2 := 9
  pinB2 := 10
  oeActiveLevel := false

/-- Which agent takes the turn, where no list of turns is given: any enabled agent may (R10, U12).
A free value (log entry 1), safe: every interleaving is allowed, unfair ones too. -/
opaque Config.freeTurn : Nat → Agent

/-- The word the producer presents, where no list of words is given: an input of the step relation (R46).
A free value (log entry 2), safe. -/
opaque Config.freeWord : Nat → CmdWord

/-- The expected-duration hint `SendPulse` records for a plane: its value is not in the source (R193, R41, N10).
A free value (log entry 11), safe: no rule reads it. -/
opaque Config.freeHint : Nat → BitVec 4 → Word

end Sys2Proof
end

