-- ==== Sys2Proof/Syntax.lean ====
section
/-! DEFINITION. The instructions: one constructor per row of spec/opcode_table.json, in the table's order. The eleven command
words (format CMD, spec/30_encoding.md R95, R96) carry the fields the opcode uses; the fourteen values of `seq_pc` (format
SEQ_PHASE, spec/10_state.md R32) carry none. -/

namespace Sys2Proof

/-- One row of the opcode table. Field widths are those of R95 and R99: every field is unsigned and taken as it stands. -/
inductive Instr where
  /-- `SETPIXEL f, x, y, r, g, b` (R136). -/
  | setpixel (f : FrameId) (x y : BitVec 16) (r g b : BitVec 8)
  /-- `FILL f, r, g, b` (R140). -/
  | fill (f : FrameId) (r g b : BitVec 8)
  /-- `CLEAR f` (R142). -/
  | clear (f : FrameId)
  /-- `SETPWMBITS f, v` (R144). -/
  | setpwmbits (f : FrameId) (v : BitVec 8)
  /-- `SETBRIGHTNESS f, v` (R146). -/
  | setbrightness (f : FrameId) (v : BitVec 8)
  /-- `SETLUMCORRECT f, v` (R148). -/
  | setlumcorrect (f : FrameId) (v : BitVec 8)
  /-- `WIDTH` (R150). -/
  | width
  /-- `HEIGHT` (R151). -/
  | height
  /-- `CREATEFRAME` (R216). -/
  | createframe
  /-- `SWAPONVSYNC f`, `f = 0xF` is the peek (R218). -/
  | swaponvsync (f : FrameId)
  /-- `SHUTDOWN` (R224). -/
  | shutdown
  /-- `TOP`, top-of-buffer (R222). -/
  | top
  /-- `ROW_CLR`, first write of the row address (R165). -/
  | rowClr
  /-- `ROW_SET`, second write of the row address (R166). -/
  | rowSet
  /-- `COL_CLR`, clear clock and colour (R168). -/
  | colClr
  /-- `COL_DATA`, set colour bits (R169). -/
  | colData
  /-- `COL_CLK`, set clock (R170). -/
  | colClk
  /-- `PLANE_CLR`, after all columns (R171). -/
  | planeClr
  /-- `PLANE_WAIT`, wait for the previous pulse (R172). -/
  | planeWait
  /-- `STROBE_SET` (R173). -/
  | strobeSet
  /-- `STROBE_CLR` (R174). -/
  | strobeClr
  /-- `PULSE`, start the pulse of this plane (R175). -/
  | pulse
  /-- `ROW_WAIT`, wait for the last pulse of the half-row (R176). -/
  | rowWait
  /-- `TEARDOWN` (R226). -/
  | teardown
  /-- `HALT`, terminal, no step (R32, R164). -/
  | halt
  deriving DecidableEq, Repr

/-- The values of the register `seq_pc` (R32). The codes 14 and 15 are unused and excluded by type (U8). -/
inductive Phase where
  | top | rowClr | rowSet | colClr | colData | colClk | planeClr | planeWait
  | strobeSet | strobeClr | pulse | rowWait | teardown | halt
  deriving DecidableEq, Repr

/-- The row of the opcode table a value of `seq_pc` names (R32). -/
def Phase.instr : Phase → Instr
  | .top => .top
  | .rowClr => .rowClr
  | .rowSet => .rowSet
  | .colClr => .colClr
  | .colData => .colData
  | .colClk => .colClk
  | .planeClr => .planeClr
  | .planeWait => .planeWait
  | .strobeSet => .strobeSet
  | .strobeClr => .strobeClr
  | .pulse => .pulse
  | .rowWait => .rowWait
  | .teardown => .teardown
  | .halt => .halt

/-- The format of a row: a command word of the command port, or a value of `seq_pc` (R90). -/
inductive Format where
  | cmd | seqPhase
  deriving DecidableEq, Repr

/-- The format of each instruction (the table's column `format`). -/
def Instr.format : Instr → Format
  | .setpixel .. => .cmd
  | .fill .. => .cmd
  | .clear _ => .cmd
  | .setpwmbits .. => .cmd
  | .setbrightness .. => .cmd
  | .setlumcorrect .. => .cmd
  | .width => .cmd
  | .height => .cmd
  | .createframe => .cmd
  | .swaponvsync _ => .cmd
  | .shutdown => .cmd
  | .top => .seqPhase
  | .rowClr => .seqPhase
  | .rowSet => .seqPhase
  | .colClr => .seqPhase
  | .colData => .seqPhase
  | .colClk => .seqPhase
  | .planeClr => .seqPhase
  | .planeWait => .seqPhase
  | .strobeSet => .seqPhase
  | .strobeClr => .seqPhase
  | .pulse => .seqPhase
  | .rowWait => .seqPhase
  | .teardown => .seqPhase
  | .halt => .seqPhase

end Sys2Proof
end

