-- ==== Sys2Proof/WellFormed.lean ====
section
/-! DEFINITION. What is checked before a term may be used. An instruction's operands are bit vectors of exactly the widths of
spec/30_encoding.md R95, so every operand value is encodable and there is nothing to check on an instruction beyond its type
(ranges such as `v <= N` are run-time checks with a response, R244). A configuration is checked: spec/00_scope.md R6 to R8 give
the legal values, and R7 asks a model to refuse a record that fails. -/

namespace Sys2Proof

/-- `ROWS` is even, 2 to 16 (R6). -/
def Config.rowsOk (c : Config) : Bool := c.rows % 2 == 0 && decide (2 ≤ c.rows) && decide (c.rows ≤ 16)

/-- `COLUMNS` is 1 to 65535 (R6). -/
def Config.columnsOk (c : Config) : Bool := decide (1 ≤ c.columns) && decide (c.columns ≤ 65535)

/-- `PARALLEL` is 1 (R6, U5). -/
def Config.parallelOk (c : Config) : Bool := c.parallel == 1

/-- `N` is 8, 9, 10 or 11 (R6). -/
def Config.depthOk (c : Config) : Bool := decide (8 ≤ c.n) && decide (c.n ≤ 11)

/-- `NUM_FRAMES` is 2 to 15 (R6). -/
def Config.framesOk (c : Config) : Bool := decide (2 ≤ c.numFrames) && decide (c.numFrames ≤ 15)

/-- `SPLIT_FACTOR` is 8 and `PT_WIDTH_LIMIT` at least 7 (R7). -/
def Config.splitOk (c : Config) : Bool := c.splitFactor == 8 && decide (7 ≤ c.widthLimit)

/-- `FIFO_DEPTH` is at least `SPLIT_FACTOR + 2` (R7). -/
def Config.fifoOk (c : Config) : Bool := decide (c.splitFactor + 2 ≤ c.fifoDepth)

/-- `BASE_TICKS` is at least 1; every split duration is a multiple of `SPLIT_FACTOR`; the longest duration is below `2^32`
(R7). -/
def Config.ticksOk (c : Config) : Bool :=
  decide (1 ≤ c.baseTicks)
    && (List.range c.n).all (fun p =>
      decide (c.baseTicks * 2 ^ p ≤ c.widthLimit) || c.baseTicks * 2 ^ p % c.splitFactor == 0)
    && decide (c.baseTicks * 2 ^ (c.n - 1) < 2 ^ 32)

/-- The six colour pins, in the order R1, G1, B1, R2, G2, B2 (R8). -/
def Config.colorPins (c : Config) : List Nat := [c.pinR1, c.pinG1, c.pinB1, c.pinR2, c.pinG2, c.pinB2]

/-- The colour pins are a bijection onto `7, 8, 9, 10, 11, 27` (R8). -/
def Config.pinsOk (c : Config) : Bool := c.colorPins.isPerm [7, 8, 9, 10, 11, 27]

/-- A legal configuration: every check of R6, R7 and R8. -/
def Config.legal (c : Config) : Bool :=
  c.rowsOk && c.columnsOk && c.parallelOk && c.depthOk && c.framesOk && c.splitOk && c.fifoOk && c.ticksOk && c.pinsOk

/-- Well-formed instructions: all of them, since each field's type is its encoded width (R95, R99). -/
def Instr.wellFormed : Instr → Bool
  | .setpixel _ _ _ _ _ _ => true
  | .fill _ _ _ _ => true
  | .clear _ => true
  | .setpwmbits _ _ => true
  | .setbrightness _ _ => true
  | .setlumcorrect _ _ => true
  | .width => true
  | .height => true
  | .createframe => true
  | .swaponvsync _ => true
  | .shutdown => true
  | .top => true
  | .rowClr => true
  | .rowSet => true
  | .colClr => true
  | .colData => true
  | .colClk => true
  | .planeClr => true
  | .planeWait => true
  | .strobeSet => true
  | .strobeClr => true
  | .pulse => true
  | .rowWait => true
  | .teardown => true
  | .halt => true

end Sys2Proof
end

