-- ==== Sys2Proof/Decode.lean ====
section
/-! DEFINITION. Decoding (total on every 64-bit command word and every 4-bit phase code, rejecting by name) and, after it, the
encoder. From spec/30_encoding.md R95 to R97, R100 and spec/10_state.md R32. The match and mask table of R97 stands beside the
decoder as data, so that the two can be proved to agree. -/

namespace Sys2Proof

/-- Why a word names no instruction. -/
inductive DecodeError where
  /-- The opcode is `0x0` or `0xC` to `0xF` (R96, R100). -/
  | reservedOpcode
  /-- A field the opcode does not use is not zero (R100). -/
  | reservedField
  /-- A phase code 14 or 15 (R32, R100). -/
  | unusedPhaseCode
  deriving DecidableEq, Repr

/-- The fields of the format `CMD` (R95). -/
structure CmdFields where
  op : BitVec 4
  f : FrameId
  x : BitVec 16
  y : BitVec 16
  r : BitVec 8
  g : BitVec 8
  b : BitVec 8
  deriving DecidableEq, Repr

/-- The fields of a command word: `op[63:60] f[59:56] x[55:40] y[39:24] r[23:16] g[15:8] b[7:0]` (R95). -/
def CmdFields.ofWord (w : CmdWord) : CmdFields where
  op := w.extractLsb' 60 4
  f := w.extractLsb' 56 4
  x := w.extractLsb' 40 16
  y := w.extractLsb' 24 16
  r := w.extractLsb' 16 8
  g := w.extractLsb' 8 8
  b := w.extractLsb' 0 8

/-- The word with the given fields (R95). -/
def CmdFields.toWord (c : CmdFields) : CmdWord :=
  c.op ++ c.f ++ c.x ++ c.y ++ c.r ++ c.g ++ c.b

/-- The instruction if the reserved fields of its opcode are all zero, else illegal (R100). -/
def ifReservedZero (zero : Bool) (i : Instr) : Except DecodeError Instr :=
  if zero then .ok i else .error .reservedField

/-- The fields `x` and `y` are zero. -/
def CmdFields.zeroXY (c : CmdFields) : Bool := c.x == 0#16 && c.y == 0#16

/-- The fields `x`, `y`, `r` and `g` are zero: those reserved for the one-argument commands (R96). -/
def CmdFields.zeroXYRG (c : CmdFields) : Bool := c.zeroXY && c.r == 0#8 && c.g == 0#8

/-- Every field but the opcode and the frame is zero. -/
def CmdFields.zeroButFrame (c : CmdFields) : Bool := c.zeroXYRG && c.b == 0#8

/-- Every field but the opcode is zero. -/
def CmdFields.zeroButOp (c : CmdFields) : Bool := c.zeroButFrame && c.f == 0#4

/-- The opcode map of R96 over the fields of R95: which fields each opcode reads, every other one zero. -/
def decodeFields (c : CmdFields) : Except DecodeError Instr :=
  match c.op.toNat with
  | 0x1 => .ok (.setpixel c.f c.x c.y c.r c.g c.b)
  | 0x2 => ifReservedZero c.zeroXY (.fill c.f c.r c.g c.b)
  | 0x3 => ifReservedZero c.zeroButFrame (.clear c.f)
  | 0x4 => ifReservedZero c.zeroXYRG (.setpwmbits c.f c.b)
  | 0x5 => ifReservedZero c.zeroXYRG (.setbrightness c.f c.b)
  | 0x6 => ifReservedZero c.zeroXYRG (.setlumcorrect c.f c.b)
  | 0x7 => ifReservedZero c.zeroButOp .width
  | 0x8 => ifReservedZero c.zeroButOp .height
  | 0x9 => ifReservedZero c.zeroButOp .createframe
  | 0xA => ifReservedZero c.zeroButFrame (.swaponvsync c.f)
  | 0xB => ifReservedZero c.zeroButOp .shutdown
  | _ => .error .reservedOpcode

/-- The instruction a command word selects, or why it selects none (R96, R97, R100). -/
def decodeCmd (w : CmdWord) : Except DecodeError Instr := decodeFields (CmdFields.ofWord w)

/-- The 4-bit code of a phase (R32). -/
def Phase.code : Phase → BitVec 4
  | .top => 0#4
  | .rowClr => 1#4
  | .rowSet => 2#4
  | .colClr => 3#4
  | .colData => 4#4
  | .colClk => 5#4
  | .planeClr => 6#4
  | .planeWait => 7#4
  | .strobeSet => 8#4
  | .strobeClr => 9#4
  | .pulse => 10#4
  | .rowWait => 11#4
  | .teardown => 12#4
  | .halt => 13#4

/-- Every phase, in the order of its code (R32). -/
def Phase.all : List Phase :=
  [.top, .rowClr, .rowSet, .colClr, .colData, .colClk, .planeClr, .planeWait, .strobeSet, .strobeClr, .pulse, .rowWait,
    .teardown, .halt]

/-- The phase a 4-bit code names; the codes 14 and 15 name none (R32, R100). -/
def decodePhase (c : BitVec 4) : Except DecodeError Phase :=
  match Phase.all.find? (fun p => p.code == c) with
  | some p => .ok p
  | none => .error .unusedPhaseCode

/-- What an instruction is read from: a command word, or a phase code (R90). -/
inductive CodeWord where
  | cmd (w : CmdWord)
  | phase (c : BitVec 4)
  deriving DecidableEq, Repr

/-- The decoder over both formats. -/
def decode : CodeWord → Except DecodeError Instr
  | .cmd w => decodeCmd w
  | .phase c => match decodePhase c with
    | .ok p => .ok p.instr
    | .error e => .error e

/-- The command word with opcode, frame and argument `v` in the `b` field, all else zero (R95, R96). -/
def encodeSetting (op : BitVec 4) (f : FrameId) (v : BitVec 8) : CodeWord :=
  .cmd (CmdFields.toWord ⟨op, f, 0#16, 0#16, 0#8, 0#8, v⟩)

/-- The encoding of each instruction (R95, R96 for commands; R32 for phases). -/
def encode : Instr → CodeWord
  | .setpixel f x y r g b => .cmd (CmdFields.toWord ⟨0x1#4, f, x, y, r, g, b⟩)
  | .fill f r g b => .cmd (CmdFields.toWord ⟨0x2#4, f, 0#16, 0#16, r, g, b⟩)
  | .clear f => encodeSetting 0x3#4 f 0#8
  | .setpwmbits f v => encodeSetting 0x4#4 f v
  | .setbrightness f v => encodeSetting 0x5#4 f v
  | .setlumcorrect f v => encodeSetting 0x6#4 f v
  | .width => encodeSetting 0x7#4 0#4 0#8
  | .height => encodeSetting 0x8#4 0#4 0#8
  | .createframe => encodeSetting 0x9#4 0#4 0#8
  | .swaponvsync f => encodeSetting 0xA#4 f 0#8
  | .shutdown => encodeSetting 0xB#4 0#4 0#8
  | .top => .phase Phase.top.code
  | .rowClr => .phase Phase.rowClr.code
  | .rowSet => .phase Phase.rowSet.code
  | .colClr => .phase Phase.colClr.code
  | .colData => .phase Phase.colData.code
  | .colClk => .phase Phase.colClk.code
  | .planeClr => .phase Phase.planeClr.code
  | .planeWait => .phase Phase.planeWait.code
  | .strobeSet => .phase Phase.strobeSet.code
  | .strobeClr => .phase Phase.strobeClr.code
  | .pulse => .phase Phase.pulse.code
  | .rowWait => .phase Phase.rowWait.code
  | .teardown => .phase Phase.teardown.code
  | .halt => .phase Phase.halt.code

/-- One row of the match and mask table of R97. -/
structure CmdRow where
  mnemonic : String
  pattern : CmdWord
  mask : CmdWord
  deriving DecidableEq, Repr

/-- The match and mask table of R97, row for row. -/
def cmdTable : List CmdRow :=
  [⟨"SETPIXEL", 0x1000000000000000#64, 0xF000000000000000#64⟩,
   ⟨"FILL", 0x2000000000000000#64, 0xF0FFFFFFFF000000#64⟩,
   ⟨"CLEAR", 0x3000000000000000#64, 0xF0FFFFFFFFFFFFFF#64⟩,
   ⟨"SETPWMBITS", 0x4000000000000000#64, 0xF0FFFFFFFFFFFF00#64⟩,
   ⟨"SETBRIGHTNESS", 0x5000000000000000#64, 0xF0FFFFFFFFFFFF00#64⟩,
   ⟨"SETLUMCORRECT", 0x6000000000000000#64, 0xF0FFFFFFFFFFFF00#64⟩,
   ⟨"WIDTH", 0x7000000000000000#64, 0xFFFFFFFFFFFFFFFF#64⟩,
   ⟨"HEIGHT", 0x8000000000000000#64, 0xFFFFFFFFFFFFFFFF#64⟩,
   ⟨"CREATEFRAME", 0x9000000000000000#64, 0xFFFFFFFFFFFFFFFF#64⟩,
   ⟨"SWAPONVSYNC", 0xA000000000000000#64, 0xF0FFFFFFFFFFFFFF#64⟩,
   ⟨"SHUTDOWN", 0xB000000000000000#64, 0xFFFFFFFFFFFFFFFF#64⟩]

/-- A word selects a row when `c & mask = match` (R97). -/
def CmdRow.selects (r : CmdRow) (w : CmdWord) : Bool := w &&& r.mask == r.pattern

/-- The table's mnemonic of an instruction (spec/opcode_table.json). -/
def Instr.mnemonic : Instr → String
  | .setpixel .. => "SETPIXEL"
  | .fill .. => "FILL"
  | .clear _ => "CLEAR"
  | .setpwmbits .. => "SETPWMBITS"
  | .setbrightness .. => "SETBRIGHTNESS"
  | .setlumcorrect .. => "SETLUMCORRECT"
  | .width => "WIDTH"
  | .height => "HEIGHT"
  | .createframe => "CREATEFRAME"
  | .swaponvsync _ => "SWAPONVSYNC"
  | .shutdown => "SHUTDOWN"
  | .top => "TOP"
  | .rowClr => "ROW_CLR"
  | .rowSet => "ROW_SET"
  | .colClr => "COL_CLR"
  | .colData => "COL_DATA"
  | .colClk => "COL_CLK"
  | .planeClr => "PLANE_CLR"
  | .planeWait => "PLANE_WAIT"
  | .strobeSet => "STROBE_SET"
  | .strobeClr => "STROBE_CLR"
  | .pulse => "PULSE"
  | .rowWait => "ROW_WAIT"
  | .teardown => "TEARDOWN"
  | .halt => "HALT"

/-- The code word of an instruction word of `nbits` bits, numbered as the table numbers them: at most 8 bits is a phase code
(format SEQ_PHASE, 4 bits in one byte), more is a command word (format CMD, 64 bits). `none` where the number does not fit the
format. -/
def codeWordOf (nbits w : Nat) : Option CodeWord :=
  if nbits ≤ 8 then
    if w < 2 ^ 4 then some (.phase (BitVec.ofNat 4 w)) else none
  else if w < 2 ^ 64 then some (.cmd (BitVec.ofNat 64 w)) else none

/-- The instruction the decoder reads from a table word; a fixed name of the host's. -/
def decodeTableWord (nbits w : Nat) : Option Instr :=
  match codeWordOf nbits w with
  | some c => (decode c).toOption
  | none => none

end Sys2Proof
end

