-- ==== Sys2Proof/Machine/State.lean ====
section
/-! DEFINITION. The complete state of the block as plain data (spec/10_state.md R20 to R44), the reasons a step can stop, and the
state after reset (spec/70_reset_and_hazards.md R270 to R274). The model's own fields (`cfg`, `cmd`'s presented bit,
`hostWords`, `agenda`, `freeCount`) are named as such. -/

namespace Sys2Proof.Machine

/-- `run` (R30). Code 3 is unused and excluded by type (U8). -/
inductive RunState where
  | scanning | stopped | failed
  deriving DecidableEq, Repr

/-- `host` (R31). -/
inductive HostState where
  | idle | waitSwap | waitStop
  deriving DecidableEq, Repr

/-- The two values the block ever writes to the timer's control register, kept symbolic (R104, D23). Any other control write
is excluded by type (U7). -/
inductive CtlVal where
  | ctlRun | ctlQuiet
  deriving DecidableEq, Repr

/-- One write to a pulse-timer register, `PtWrite(reg, v)` (R11, R194 to R196). -/
inductive PtWrite where
  | rng (v : Word)
  | fifo (v : Word)
  | ctl (v : CtlVal)
  deriving DecidableEq, Repr

/-- One event on the GPIO Register Interface (R11). -/
inductive Event where
  | gpioSet (m : Word)
  | gpioClr (m : Word)
  | ptWrite (w : PtWrite)
  deriving DecidableEq, Repr

/-- The settings of one frame (R22, R23, R24). -/
structure FrameSettings where
  /-- 7 bits, legal values 1 to 100 (R22). -/
  brightness : BitVec 7
  /-- 4 bits, legal values 1 to `N` (R23). -/
  pwmBits : BitVec 4
  /-- The correction mode: `true` is the CIE1931 table, `false` the linear mode (R24). -/
  lum : Bool
  deriving DecidableEq, Repr

/-- The entry being played: `on` more ticks of active output, `per` more ticks of its period (R37). -/
structure Player where
  on : Word
  per : Word
  deriving DecidableEq, Repr

/-- Frame memory: (word address, word) pairs, addresses strictly rising, no listed zero (`Memory.wf`). The spec's smallest
addressable unit is the 32-bit word (R60, R62; log entry 10). -/
abbrev Memory := List (Nat × Word)

/-- The state of the block. -/
structure State where
  /-- MODEL: the configuration record, which no step writes (log entry 3). -/
  cfg : Config
  /-- `frame[f].buf[d][p][x]` at word address `addr(f, d, p, x)` (R21, R61). -/
  mem : Memory
  /-- `frame[f].brightness`, `frame[f].pwm_bits`, `frame[f].lum` for each 4-bit frame id (R22 to R24; log entry 16). -/
  frames : Vector FrameSettings 16
  /-- `num_created` (R25). -/
  numCreated : BitVec 4
  /-- `active` (R26). -/
  active : FrameId
  /-- `pending` (R27). -/
  pending : Option FrameId
  /-- `swap_ret` (R28). -/
  swapRet : Option FrameId
  /-- `stop_flag` (R29). -/
  stopFlag : Bool
  /-- `run` (R30). -/
  run : RunState
  /-- `host` (R31). -/
  host : HostState
  /-- The command register: the word presented and not yet executed, if any (R94, R60; log entry 2). -/
  cmd : Option CmdWord
  /-- `rsp`, the response register (R31, R98). -/
  rsp : Word
  /-- `seq_pc` (R32). -/
  seqPc : Phase
  /-- `seq_d`, the half-row (R33). -/
  seqD : BitVec 3
  /-- `seq_p`, the plane (R33). -/
  seqP : BitVec 4
  /-- `seq_x`, the column (R33). -/
  seqX : BitVec 16
  /-- `pt_rng` (R34). -/
  ptRng : Word
  /-- `pt_fifo`, head first (R35). -/
  ptFifo : List Word
  /-- `pt_hold` (R36). -/
  ptHold : Option Word
  /-- `pt_cur` (R37). -/
  ptCur : Option Player
  /-- `pt_en` (R38). -/
  ptEn : Bool
  /-- `oe`: the output window is open (R39). -/
  oe : Bool
  /-- `pt_start` (R41). -/
  ptStart : Word
  /-- `pt_hint` (R41). -/
  ptHint : Word
  /-- `gpio`, the output latch of the general I/O block (R42). -/
  gpio : Word
  /-- `t1mhz`, the free-running 1 MHz counter (R43). -/
  t1mhz : Word
  /-- `trace`, the ghost list of events, oldest first (R44, R11). -/
  trace : List Event
  /-- MODEL: the words the producer has still to present, an input (R46; log entry 2). -/
  hostWords : List CmdWord
  /-- MODEL: the agents whose turns come next, an input (R46; log entry 1). -/
  agenda : List Agent
  /-- MODEL: the counter the free values are applied to (log entries 1, 2, 11). -/
  freeCount : Nat
  deriving DecidableEq, Repr

/-- Why the machine stops with a fault. None is reachable from reset. -/
inductive Fault where
  /-- A push to a full timer FIFO, raised by `ptPush` (R195, U7: "a model makes each an assertion failure"). Safe. -/
  | fifoOverflow
  /-- A tick with the timer enabled and range 0, raised by `tick` (R200: "a model treats it as a fault", U7). Safe. -/
  | tickWithRangeZero
  /-- A write to a frame at or above `NUM_FRAMES`, raised by `State.patchFrame`: frame memory has no such words (R60, R61, R63;
  log entry 13). Safe. -/
  | noSuchFrame (f : FrameId)
  /-- A read of a cell outside the index ranges of R61, raised by `State.readCell`: frame memory has no such word (R60, R61, R63;
  log entry 13). Safe. -/
  | noSuchCell
  deriving DecidableEq, Repr

/-- Why a step gives no meaning. -/
inductive Refusal where
  /-- An arm of `exec` without a meaning yet; no arm is left so. Safe. -/
  | notModelled (mnemonic : String)
  /-- The configuration record is not legal, raised by `step` (R7: "which a model must check and refuse", U4, U5). Safe. -/
  | illegalConfig
  deriving DecidableEq, Repr

/-- What a step answers. -/
abbrev Outcome := Host.Outcome State Fault Refusal

/-- The settings of a frame when it is created: brightness 100, `pwm_bits = N`, correction on (R22 to R24, D13). -/
def FrameSettings.created (c : Config) : FrameSettings := ⟨100#7, BitVec.ofNat 4 c.n, true⟩

/-- What the spec leaves unspecified at reset, to be treated as free inputs (R271, U9), and the input `map_ok` (R46). -/
structure ResetInputs where
  /-- `map_ok`, sampled once at reset release (R250, R270). -/
  mapOk : Bool
  gpio : Word
  rsp : Word
  ptStart : Word
  ptHint : Word
  t1mhz : Word
  deriving DecidableEq, Repr

/-- Reset release with a configuration and the unspecified values (R20, R270, R271, R274). Frames not yet created hold the words
and settings of a created frame, which no rule observes (R21, U10; log entry 9). -/
def State.resetFrom (c : Config) (i : ResetInputs) : State where
  cfg := c
  mem := []
  frames := Vector.replicate 16 (FrameSettings.created c)
  numCreated := 1#4
  active := 0#4
  pending := none
  swapRet := none
  stopFlag := false
  run := if i.mapOk then .scanning else .failed
  host := .idle
  cmd := none
  rsp := i.rsp
  seqPc := if i.mapOk then .top else .halt
  seqD := 0#3
  seqP := 0#4
  seqX := 0#16
  ptRng := 0#32
  ptFifo := []
  ptHold := none
  ptCur := none
  ptEn := false
  oe := false
  ptStart := i.ptStart
  ptHint := i.ptHint
  gpio := i.gpio
  t1mhz := i.t1mhz
  trace := []
  hostWords := []
  agenda := []
  freeCount := 0

/-- The values the model names for what the spec leaves unspecified at reset: registers mapped, every open register zero.
DESIGN CHOICE (log entries 5 to 8), unsafe. -/
def ResetInputs.standard : ResetInputs := ⟨true, 0#32, 0#32, 0#32, 0#32, 0#32⟩

/-- The machine right after reset (R271), under the configuration `Config.standard` (log entry 4). -/
def State.reset : State := State.resetFrom Config.standard ResetInputs.standard

end Sys2Proof.Machine
end

