-- ==== Sys2Proof/Machine/Operands.lean ====
section
/-! DEFINITION. The operand forms: the named masks (spec/00_scope.md R14), the row address field (spec/30_encoding.md R93), the
address of a frame word (spec/20_memory.md R61), the luminance mapping (spec/40_luminance.md), and how a corrected value is
spread over planes (spec/30_encoding.md R106). -/

namespace Sys2Proof.Machine

/-- `STROBE` (R14). -/
def strobeMask : Word := bit 4

/-- `CLK` (R14). -/
def clkMask : Word := bit 17

/-- `OE_BIT` (R14). -/
def oeBit : Word := bit 18

/-- `ROW_MASK` (R14). -/
def rowMask : Word := bit 22 ||| bit 23 ||| bit 24

/-- `COLOR_MASK` (R14). -/
def colorMask : Word := bit 7 ||| bit 8 ||| bit 9 ||| bit 10 ||| bit 11 ||| bit 27

/-- `COLOR_CLK_MASK` (R14). -/
def colorClkMask : Word := colorMask ||| clkMask

/-- `ALL_MASK` (R14). -/
def allMask : Word := colorMask ||| clkMask ||| strobeMask ||| rowMask

/-- `rowaddr(d) = d << 22` (R93). -/
def rowAddr (d : BitVec 3) : Word := d.setWidth 32 <<< 22

/-- `addr(f, d, p, x) = f * FRAME_WORDS + (d * N + p) * COLUMNS + x` (R61). -/
def cellAddr (c : Config) (f d p x : Nat) : Nat := f * c.frameWords + (d * c.n + p) * c.columns + x

/-- `LUT_CIE(b, c)` for depth `n`: the floor of the exact rational value (R121, R122). -/
def lutCie (n b c : Nat) : Nat :=
  if c * b ≤ 2040 then (2 ^ n - 1) * 10 * (c * b) / (255 * 9023)
  else (2 ^ n - 1) * (c * b + 4080) ^ 3 / 29580 ^ 3

/-- `LIN(b, c)` for depth `n` (R125). -/
def linMap (n b c : Nat) : Nat := (c * b / 100) <<< (n - 8)

/-- `map(f, c)` under the settings of frame `f` (R126). -/
def mapValue (n : Nat) (st : FrameSettings) (c : BitVec 8) : Nat :=
  if st.lum then lutCie n st.brightness.toNat c.toNat else linMap n st.brightness.toNat c.toNat

/-- `V[p] << pin` (R106, R136). -/
def planeBit (v p pin : Nat) : Word := if v.testBit p then bit pin else 0#32

/-- The active planes of a frame, `N - pwm_bits .. N - 1`, ascending (R136). -/
def activePlanes (n : Nat) (k : BitVec 4) : List Nat := (List.range n).filter (fun p => n - k.toNat ≤ p)

/-- One read-modify-write of a word of frame memory: the bits of `mask` become `bits`, the others are kept (R136, R140). -/
structure CellPatch where
  addr : Nat
  mask : Word
  bits : Word
  deriving DecidableEq, Repr

/-- The three colour pins of the half-panel row `y` lies in: upper if `y < HALF`, lower otherwise (R136). -/
def halfPins (c : Config) (y : Nat) : Nat × Nat × Nat :=
  if y < c.half then (c.pinR1, c.pinG1, c.pinB1) else (c.pinR2, c.pinG2, c.pinB2)

/-- The word of the three pins (R136). -/
def pinsMask (pins : Nat × Nat × Nat) : Word := bit pins.1 ||| bit pins.2.1 ||| bit pins.2.2

/-- `(VR[p] << pr) | (VG[p] << pg) | (VB[p] << pb)` (R136). -/
def pinsBits (pins : Nat × Nat × Nat) (vr vg vb p : Nat) : Word :=
  planeBit vr p pins.1 ||| planeBit vg p pins.2.1 ||| planeBit vb p pins.2.2

/-- What `SETPIXEL` does to frame memory: one patch for each active plane (R136). -/
def pixelPatches (c : Config) (st : FrameSettings) (f : FrameId) (x y : BitVec 16) (r g b : BitVec 8) : List CellPatch :=
  (activePlanes c.n st.pwmBits).map fun p =>
    { addr := cellAddr c f.toNat (y.toNat % c.half) p x.toNat
      mask := pinsMask (halfPins c y.toNat)
      bits := pinsBits (halfPins c y.toNat) (mapValue c.n st r) (mapValue c.n st g) (mapValue c.n st b) p }

/-- The cells `[d][p][x]` of one frame over the given planes, in the order of the loops of R140 and R142. -/
def frameCells (c : Config) (planes : List Nat) : List (Nat × Nat × Nat) :=
  (List.range c.half).flatMap fun d => planes.flatMap fun p => (List.range c.columns).map fun x => (d, p, x)

/-- The colour word `FILL` gives plane `p`: both half-panels get the same value (R140). -/
def fillBits (c : Config) (vr vg vb p : Nat) : Word :=
  pinsBits (c.pinR1, c.pinG1, c.pinB1) vr vg vb p ||| pinsBits (c.pinR2, c.pinG2, c.pinB2) vr vg vb p

/-- What `FILL` does to frame memory: every cell of the active planes (R140). -/
def fillPatches (c : Config) (st : FrameSettings) (f : FrameId) (r g b : BitVec 8) : List CellPatch :=
  (frameCells c (activePlanes c.n st.pwmBits)).map fun (d, p, x) =>
    { addr := cellAddr c f.toNat d p x
      mask := colorMask
      bits := fillBits c (mapValue c.n st r) (mapValue c.n st g) (mapValue c.n st b) p }

/-- Zeroing every word of a frame, every plane (R142, R216). -/
def zeroPatches (c : Config) (f : FrameId) : List CellPatch :=
  (frameCells c (List.range c.n)).map fun (d, p, x) =>
    { addr := cellAddr c f.toNat d p x, mask := BitVec.allOnes 32, bits := 0#32 }

end Sys2Proof.Machine
end

