-- ==== Sys2Proof/Machine/Flags.lean ====
section
/-! DEFINITION. The single-bit conditions of the block (spec/10_state.md R48), the codes of `run` and `host` (R30, R31), and the
response word with its status codes (spec/30_encoding.md R98). There are no arithmetic condition codes. -/

namespace Sys2Proof.Machine

/-- `STA.EMPT`: 1 exactly when `pt_fifo` holds no entry; it does not look at `pt_hold` or `pt_cur` (R40). -/
def State.staEmpt (s : State) : Bool := s.ptFifo.isEmpty

/-- The level driven on pin 18: `OE_ACTIVE_LEVEL` when `oe = 1`, its complement when `oe = 0` (R39). -/
def State.oePin (s : State) : Bool := if s.oe then s.cfg.oeActiveLevel else !s.cfg.oeActiveLevel

/-- The level the block drives on pin `i`, if it drives that pin: pin 18 from `oe`, the pins of `ALL_MASK` from `gpio`
(R39, R42). -/
def State.pinLevel (s : State) (i : Nat) : Option Bool :=
  if i = 18 then some s.oePin
  else if allMask.getLsbD i then some (s.gpio.getLsbD i) else none

/-- The code of a value of `run`; the code 3 is unused (R30). -/
def RunState.code : RunState → BitVec 2
  | .scanning => 0#2
  | .stopped => 1#2
  | .failed => 2#2

/-- The code of a value of `host` (R31). -/
def HostState.code : HostState → BitVec 2
  | .idle => 0#2
  | .waitSwap => 1#2
  | .waitStop => 2#2

/-- The status of a response (R98, R242). -/
inductive Status where
  | ok | failParam | errIllegal | errFrame | errStopped | errFatal | errActive | errNoFrame
  deriving DecidableEq, Repr

/-- The code of a status (R98). -/
def Status.code : Status → BitVec 4
  | .ok => 0#4
  | .failParam => 1#4
  | .errIllegal => 2#4
  | .errFrame => 3#4
  | .errStopped => 4#4
  | .errFatal => 5#4
  | .errActive => 6#4
  | .errNoFrame => 7#4

/-- The response word: status in bits 31 to 28, zero in 27 to 16, the value in 15 to 0 (R98). -/
def rspWord (st : Status) (v : BitVec 16) : Word := st.code ++ 0#12 ++ v

/-- The failing status of a test, if the test fails. -/
def failIf (c : Bool) (st : Status) : Option Status := if c then some st else none

/-- Checks (1) and (2): the terminal values of `run` answer every word (R244, R248, R250). -/
def State.portCheck (s : State) : Option Status :=
  match s.run with
  | .failed => some .errFatal
  | .stopped => some .errStopped
  | .scanning => none

/-- Check (4): the frame operand names a created frame (R244, R245). -/
def State.frameCheck (s : State) (f : FrameId) : Option Status := failIf (decide (s.numCreated ≤ f)) .errFrame

/-- Check (5): the frame operand is not the active frame (R244, R246). -/
def State.ownerCheck (s : State) (f : FrameId) : Option Status := failIf (decide (f = s.active)) .errActive

/-- Checks (1), (2), (4), (5), first failure wins: those of every command that writes a frame or its settings (R135, R244). Check
(3), the decoding of the word, stands in `runWord`. -/
def State.writeCheck (s : State) (f : FrameId) : Option Status :=
  s.portCheck.or ((s.frameCheck f).or (s.ownerCheck f))

end Sys2Proof.Machine
end

