-- ==== Sys2Proof/Machine/Ops.lean ====
section
/-! DEFINITION. The named operations over memory and registers (spec/00_scope.md R13): frame memory, the GPIO writes, the response,
and REJECT, the block's analogue of taking an exception (spec/60_exceptions.md R241, R254; there is no trap entry and nothing to
return from, R255). The pulse-timer writes are in Timer.lean. -/

namespace Sys2Proof.Machine

/-- What an address that is not listed reads as: zero (R21, D14; log entry 10). -/
def Memory.unlisted : Word := 0#32

/-- The canonical form: addresses strictly rising, no entry equal to what an unlisted address reads as. -/
abbrev Memory.wf (m : Memory) : Prop :=
  m.Pairwise (fun a b => a.1 < b.1) ∧ ∀ c ∈ m, c.2 ≠ Memory.unlisted

/-- `MemRead(a, 1)` (R13, R61). -/
def Memory.read : Memory → Nat → Word
  | [], _ => Memory.unlisted
  | (k, w) :: m, a => if k = a then w else Memory.read m a

/-- The entry for an address, none for the word an unlisted address reads as. -/
def Memory.cell (a : Nat) (v : Word) : Memory := if v = Memory.unlisted then [] else [(a, v)]

/-- `MemWrite(a, 1, v)` (R13, R61), keeping the canonical form. -/
def Memory.write : Memory → Nat → Word → Memory
  | [], a, v => Memory.cell a v
  | (k, w) :: m, a, v =>
    if a < k then Memory.cell a v ++ (k, w) :: m
    else if a = k then Memory.cell a v ++ m
    else (k, w) :: Memory.write m a v

/-- One read-modify-write (R64, R136). -/
def Memory.patch (m : Memory) (c : CellPatch) : Memory :=
  m.write c.addr ((m.read c.addr &&& ~~~c.mask) ||| c.bits)

/-- Read-modify-writes one after the other. -/
def Memory.patchAll (m : Memory) (cs : List CellPatch) : Memory := cs.foldl Memory.patch m

/-- `MemRead(addr(f, d, p, x), 1)` through the state: the word exists for indices in the ranges of R61 (log entry 13). -/
def State.readCell (s : State) (f d p x : Nat) : Except Fault Word :=
  if f < s.cfg.numFrames ∧ d < s.cfg.half ∧ p < s.cfg.n ∧ x < s.cfg.columns then
    .ok (s.mem.read (cellAddr s.cfg f d p x))
  else .error .noSuchCell

/-- Read-modify-writes of words of frame `f` through the state; the words of a frame exist for `f < NUM_FRAMES` (R60, R61; log
entry 13). -/
def State.patchFrame (s : State) (f : FrameId) (cs : List CellPatch) : Except Fault State :=
  if f.toNat < s.cfg.numFrames then .ok { s with mem := s.mem.patchAll cs } else .error (.noSuchFrame f)

/-- The settings of frame `f` (R22 to R24). -/
def State.settings (s : State) (f : FrameId) : FrameSettings := s.frames[f.toNat]'f.isLt

/-- Writing the settings of frame `f`. -/
def State.setSettings (s : State) (f : FrameId) (st : FrameSettings) : State :=
  { s with frames := s.frames.set f.toNat st f.isLt }

/-- `GpioSet(m)`: one atomic write; a zero mask is still a write and still recorded (R13, R64, R66). -/
def State.gpioSet (s : State) (m : Word) : State :=
  { s with gpio := s.gpio ||| m, trace := s.trace ++ [.gpioSet m] }

/-- `GpioClr(m)` (R13, R64, R66). -/
def State.gpioClr (s : State) (m : Word) : State :=
  { s with gpio := s.gpio &&& ~~~m, trace := s.trace ++ [.gpioClr m] }

/-- `respond(s, v)` (R13, R98). -/
def State.respond (s : State) (st : Status) (v : BitVec 16) : State := { s with rsp := rspWord st v }

/-- `raise Reject(s)`: the response register takes the status with value 0 and nothing else changes (R241). -/
def State.reject (s : State) (st : Status) : State := s.respond st 0#16

/-- `seq_pc <- phase` (R13). -/
def State.goto (s : State) (p : Phase) : State := { s with seqPc := p }

/-- An effect that may fault, as an outcome. -/
def outcomeOf : Except Fault State → Outcome
  | .ok s => .next s
  | .error e => .fault e

/-- One command at the port: accepted only while `host = IDLE` (R94); the first failing check rejects it (R241, R244), else its
effect is the step. While the port is blocked it accepts nothing, so nothing happens (R31; log entry 15). -/
def State.onPort (s : State) (check : Option Status) (effect : Except Fault State) : Outcome :=
  match s.host with
  | .idle =>
    match check with
    | some st => .next (s.reject st)
    | none => outcomeOf effect
  | .waitSwap => .next s
  | .waitStop => .next s

end Sys2Proof.Machine
end

