-- ==== Sys2Proof/Machine/Canvas.lean ====
section
/-! DEFINITION. The canvas commands (spec/41_canvas_commands.md). Each is one atomic step of `CMD`; the checks of R135 come
first, in the order of R244. -/

namespace Sys2Proof.Machine

/-- `SETPIXEL f, x, y, r, g, b` (R136, R137). Out-of-range coordinates are ignored with `OK`, after the checks (R243, C4). -/
def execSetpixel (f : FrameId) (x y : BitVec 16) (r g b : BitVec 8) (s : State) : Outcome :=
  s.onPort (s.writeCheck f)
    (if s.cfg.columns ≤ x.toNat ∨ s.cfg.totalRows ≤ y.toNat then .ok (s.respond .ok 0#16)
     else (s.patchFrame f (pixelPatches s.cfg (s.settings f) f x y r g b)).map (·.respond .ok 0#16))

/-- `FILL f, r, g, b` (R140): every cell of the active planes. -/
def execFill (f : FrameId) (r g b : BitVec 8) (s : State) : Outcome :=
  s.onPort (s.writeCheck f)
    ((s.patchFrame f (fillPatches s.cfg (s.settings f) f r g b)).map (·.respond .ok 0#16))

/-- `CLEAR f` (R142): every word of the frame, every plane; the settings stay. -/
def execClear (f : FrameId) (s : State) : Outcome :=
  s.onPort (s.writeCheck f) ((s.patchFrame f (zeroPatches s.cfg f)).map (·.respond .ok 0#16))

/-- `SETPWMBITS f, v` (R144): `1 <= v <= N`, else `FAIL_PARAM`. -/
def execSetpwmbits (f : FrameId) (v : BitVec 8) (s : State) : Outcome :=
  s.onPort ((s.writeCheck f).or (failIf (decide (v.toNat < 1 ∨ s.cfg.n < v.toNat)) .failParam))
    (.ok ((s.setSettings f { s.settings f with pwmBits := v.setWidth 4 }).respond .ok 0#16))

/-- `SETBRIGHTNESS f, v` (R146, C1): `1 <= v <= 100`, else `FAIL_PARAM`. -/
def execSetbrightness (f : FrameId) (v : BitVec 8) (s : State) : Outcome :=
  s.onPort ((s.writeCheck f).or (failIf (decide (v.toNat < 1 ∨ 100 < v.toNat)) .failParam))
    (.ok ((s.setSettings f { s.settings f with brightness := v.setWidth 7 }).respond .ok 0#16))

/-- `SETLUMCORRECT f, v` (R148): `v <= 1`, else `FAIL_PARAM`. -/
def execSetlumcorrect (f : FrameId) (v : BitVec 8) (s : State) : Outcome :=
  s.onPort ((s.writeCheck f).or (failIf (decide (1 < v.toNat)) .failParam))
    (.ok ((s.setSettings f { s.settings f with lum := v.getLsbD 0 }).respond .ok 0#16))

/-- `WIDTH` (R150): answers `COLUMNS`. -/
def execWidth (s : State) : Outcome :=
  s.onPort s.portCheck (.ok (s.respond .ok (BitVec.ofNat 16 s.cfg.columns)))

/-- `HEIGHT` (R151): answers `TOTAL_ROWS`. -/
def execHeight (s : State) : Outcome :=
  s.onPort s.portCheck (.ok (s.respond .ok (BitVec.ofNat 16 s.cfg.totalRows)))

end Sys2Proof.Machine
end

