-- ==== Sys2Proof/Machine/DoubleBuffer.lean ====
section
/-! DEFINITION. The double-buffer state machine (spec/44_double_buffer.md): frame creation, the swap and its completion, shutdown
and its completion, and the refresh loop's own phases `TOP`, `TEARDOWN`, `HALT`. -/

namespace Sys2Proof.Machine

/-- `CREATEFRAME` (R216): `ERR_NOFRAME` when all `NUM_FRAMES` frames exist; else the next frame, zeroed, with the creation
settings, and its id as the answer. -/
def execCreateframe (s : State) : Outcome :=
  s.onPort (s.portCheck.or (failIf (decide (s.numCreated.toNat = s.cfg.numFrames)) .errNoFrame))
    ((s.patchFrame s.numCreated (zeroPatches s.cfg s.numCreated)).map fun t =>
      { t.setSettings s.numCreated (FrameSettings.created s.cfg) with numCreated := s.numCreated + 1#4 }.respond .ok
        (s.numCreated.setWidth 16))

/-- `SWAPONVSYNC f` (R218): the null frame is a peek and answers `active`; a frame that is created and not active is published as
pending and blocks the port (R219). -/
def execSwaponvsync (f : FrameId) (s : State) : Outcome :=
  if f = 0xF#4 then s.onPort s.portCheck (.ok (s.respond .ok (s.active.setWidth 16)))
  else s.onPort (s.writeCheck f) (.ok { s with pending := some f, host := .waitSwap })

/-- `SHUTDOWN` (R224), first step: sets the stop flag and blocks the port. -/
def execShutdown (s : State) : Outcome :=
  s.onPort s.portCheck (.ok { s with stopFlag := true, host := .waitStop })

/-- Completion of a non-null swap (R220): answers the frame handed back. -/
def State.completeSwap (s : State) (g : FrameId) : State :=
  { s.respond .ok (g.setWidth 16) with swapRet := none, host := .idle }

/-- Completion of `SHUTDOWN` (R225). -/
def State.completeStop (s : State) : State := { s.respond .ok 0#16 with host := .idle }

/-- The pickup of a pending frame, one atomic step (R222, R72). -/
def State.pickup (s : State) : State :=
  match s.pending with
  | some g => { s with swapRet := some s.active, active := g, pending := none }
  | none => s

/-- `TOP` (R222): stop check, then pickup. -/
def execTop (s : State) : Outcome :=
  if s.stopFlag then .next (s.goto .teardown)
  else .next ({ s.pickup with seqD := 0#3 }.goto .rowClr)

/-- `TEARDOWN` (R226): clears every pin the block owns and stops. -/
def execTeardown (s : State) : Outcome :=
  .next ({ s.gpioClr allMask with run := .stopped }.goto .halt)

/-- `HALT` (R32, R164): terminal; the sequencer has no step, so nothing changes (log entry 12). -/
def execHalt (s : State) : Outcome := .next s

end Sys2Proof.Machine
end

