-- ==== Sys2Proof/Machine/Timer.lean ====
section
/-! DEFINITION. The pulse timer (spec/43_pulse_timer.md): its register writes, `SendPulse`, `WaitPulseFinished` and the tick. -/

namespace Sys2Proof.Machine

/-- `dur(p) = BASE_TICKS * 2^p` (R191). -/
def pulseDur (c : Config) (p : Nat) : Nat := c.baseTicks * 2 ^ p

/-- A duration strictly above the width limit is split (R192). -/
def isSplit (c : Config) (p : Nat) : Bool := decide (c.widthLimit < pulseDur c p)

/-- `range(p)`: the duration, or a `SPLIT_FACTOR`-th of it when it is split (R192). -/
def pulseRange (c : Config) (p : Nat) : Nat :=
  if isSplit c p then pulseDur c p / c.splitFactor else pulseDur c p

/-- `len(entries(p))`: one entry, or `SPLIT_FACTOR` (R192). -/
def pulseCount (c : Config) (p : Nat) : Nat := if isSplit c p then c.splitFactor else 1

/-- `entries(p)`: each entry equals the range (R192). -/
def pulseEntries (c : Config) (p : Nat) : List Word :=
  List.replicate (pulseCount c p) (BitVec.ofNat 32 (pulseRange c p))

/-- `ontime(p)` (R203). -/
def onTime (c : Config) (p : Nat) : Nat :=
  if isSplit c p then c.splitFactor * (pulseDur c p / c.splitFactor) else pulseDur c p

/-- The event of a pulse-timer write is appended to `trace` (R11, R13). -/
def State.logPt (s : State) (w : PtWrite) : State := { s with trace := s.trace ++ [.ptWrite w] }

/-- `PtWrite(RNG, v)` (R194). -/
def State.ptRange (s : State) (v : Word) : State := { s.logPt (.rng v) with ptRng := v }

/-- `PtWrite(FIFO, v)`: append at the tail (R195). A push to a full FIFO is outside every rule (R289) and a fault (U7). -/
def State.ptPush (s : State) (v : Word) : Except Fault State :=
  if s.ptFifo.length < s.cfg.fifoDepth then .ok { s.logPt (.fifo v) with ptFifo := s.ptFifo ++ [v] }
  else .error .fifoOverflow

/-- `PtWrite(CTL, v)` (R196): `CTL_RUN` enables and does nothing else; `CTL_QUIET` disables, empties the FIFO, the holding stage
and the player and makes the output inactive. -/
def State.ptControl (s : State) : CtlVal → State
  | .ctlRun => { s.logPt (.ctl .ctlRun) with ptEn := true }
  | .ctlQuiet =>
    { s.logPt (.ctl .ctlQuiet) with ptEn := false, ptFifo := [], ptHold := none, ptCur := none, oe := false }

/-- `PtWrite(reg, v)` (R13). -/
def State.ptWrite (s : State) : PtWrite → Except Fault State
  | .rng v => .ok (s.ptRange v)
  | .fifo v => s.ptPush v
  | .ctl v => .ok (s.ptControl v)

/-- Pulse-timer writes in order. -/
def State.ptWrites (s : State) : List PtWrite → Except Fault State
  | [] => .ok s
  | w :: ws =>
    match s.ptWrite w with
    | .ok t => State.ptWrites t ws
    | .error e => .error e

/-- The register writes of `SendPulse(p)`, in order: the range, the entries, two zero sentinels, `CTL_RUN` (R193). -/
def pulseWrites (c : Config) (p : Nat) : List PtWrite :=
  .rng (BitVec.ofNat 32 (pulseRange c p)) :: (pulseEntries c p).map .fifo ++ [.fifo 0#32, .fifo 0#32, .ctl .ctlRun]

/-- The timestamp and the expected-duration hint `SendPulse` records (R193). The value of the hint is not in the source (N10): a
free value (log entry 11). -/
def State.stampPulse (s : State) (p : BitVec 4) : State :=
  { s with ptStart := s.t1mhz, ptHint := Config.freeHint s.freeCount p, freeCount := s.freeCount + 1 }

/-- `SendPulse(p)` (R193). -/
def State.sendPulse (s : State) (p : BitVec 4) : Except Fault State :=
  (s.ptWrites (pulseWrites s.cfg p.toNat)).map (·.stampPulse p)

/-- `WaitPulseFinished()`: no step while `STA.EMPT = 0` (`none`); once it is 1, the `CTL_QUIET` write (R198). The coarse sleep
has no architectural effect and is omitted (R199). -/
def State.waitPulseFinished (s : State) : Option State :=
  if s.staEmpt then some (s.ptControl .ctlQuiet) else none

/-- The player's pair for an entry `e` under range `r`: `(min(e, r), r)` (R200). -/
def playerOf (e r : Word) : Player := ⟨if e ≤ r then e else r, r⟩

/-- The tick's first part: an empty player is loaded from the holding stage, else from the FIFO (R200). -/
def State.tickLoad (s : State) : State :=
  match s.ptCur with
  | some _ => s
  | none =>
    match s.ptHold with
    | some e => { s with ptCur := some (playerOf e s.ptRng), ptHold := none }
    | none =>
      match s.ptFifo with
      | [] => s
      | e :: q => { s with ptCur := some (playerOf e s.ptRng), ptFifo := q }

/-- The tick's second part: an empty holding stage is refilled from the FIFO (R200). -/
def State.tickRefill (s : State) : State :=
  match s.ptHold with
  | some _ => s
  | none =>
    match s.ptFifo with
    | [] => s
    | e :: q => { s with ptHold := some e, ptFifo := q }

/-- What is left of the player's pair after one tick (R200). -/
def Player.after (c : Player) : Option Player :=
  if c.per - 1#32 = 0#32 then none else some ⟨if 0#32 < c.on then c.on - 1#32 else 0#32, c.per - 1#32⟩

/-- The tick's third part: play one tick; with nothing to play `oe` keeps its level (R200). -/
def State.tickPlay (s : State) : State :=
  match s.ptCur with
  | none => s
  | some c => { s with oe := decide (0#32 < c.on), ptCur := c.after }

/-- One timer tick (R200). With `pt_en = 0` it changes nothing; with `pt_en = 1` and `pt_rng = 0` it is a fault (R200, U7). -/
def State.tick (s : State) : Except Fault State :=
  if s.ptEn then
    if s.ptRng = 0#32 then .error .tickWithRangeZero else .ok s.tickLoad.tickRefill.tickPlay
  else .ok s

end Sys2Proof.Machine
end

