-- ==== Sys2Proof/Machine/Scan.lean ====
section
/-! DEFINITION. The scan-out phases of the sequencer (spec/42_scan_sequencer.md R164 to R176). A phase whose precondition does not
hold has no step: nothing changes (log entry 12). -/

namespace Sys2Proof.Machine

/-- `ROW_CLR` (R165): the row-address lines that must be 0 go low. -/
def execRowClr (s : State) : Outcome :=
  .next ((s.gpioClr (~~~rowAddr s.seqD &&& rowMask)).goto .rowSet)

/-- `ROW_SET` (R166): the row-address lines that must be 1 go high; the first active plane and column 0 are selected. -/
def execRowSet (s : State) : Outcome :=
  .next ({ s.gpioSet (rowAddr s.seqD) with
      seqP := BitVec.ofNat 4 (s.cfg.n - (s.settings s.active).pwmBits.toNat), seqX := 0#16 }.goto .colClr)

/-- `COL_CLR` (R168): clock and colour low. -/
def execColClr (s : State) : Outcome := .next ((s.gpioClr colorClkMask).goto .colData)

/-- `COL_DATA` (R169): the colour bits of the stored word go high; the scan-out's only read of frame memory. -/
def execColData (s : State) : Outcome :=
  outcomeOf ((s.readCell s.active.toNat s.seqD.toNat s.seqP.toNat s.seqX.toNat).map fun w =>
    (s.gpioSet (w &&& colorMask)).goto .colClk)

/-- `COL_CLK` (R170): clock high; the next column, or the end of the plane. -/
def execColClk (s : State) : Outcome :=
  if s.seqX.toNat = s.cfg.columns - 1 then .next ((s.gpioSet clkMask).goto .planeClr)
  else .next ({ s.gpioSet clkMask with seqX := s.seqX + 1#16 }.goto .colClr)

/-- `PLANE_CLR` (R171): clock and colour low after all columns. -/
def execPlaneClr (s : State) : Outcome := .next ((s.gpioClr colorClkMask).goto .planeWait)

/-- `PLANE_WAIT` (R172): waits for the previous pulse; no step while `STA.EMPT = 0`. -/
def execPlaneWait (s : State) : Outcome :=
  match s.waitPulseFinished with
  | some t => .next (t.goto .strobeSet)
  | none => .next s

/-- `STROBE_SET` (R173). -/
def execStrobeSet (s : State) : Outcome := .next ((s.gpioSet strobeMask).goto .strobeClr)

/-- `STROBE_CLR` (R174). -/
def execStrobeClr (s : State) : Outcome := .next ((s.gpioClr strobeMask).goto .pulse)

/-- The sequencer after a pulse was sent: the next plane, or the wait that ends the half-row (R175). -/
def State.afterPulse (s : State) : State :=
  if s.seqP.toNat = s.cfg.n - 1 then s.goto .rowWait
  else { s with seqP := s.seqP + 1#4, seqX := 0#16 }.goto .colClr

/-- `PULSE` (R175): `SendPulse(seq_p)` as one step, then the next plane or the end of the half-row. -/
def execPulse (s : State) : Outcome := outcomeOf ((s.sendPulse s.seqP).map State.afterPulse)

/-- The sequencer after the last pulse of a half-row: the next half-row, or the top of the buffer (R176). -/
def State.afterRow (s : State) : State :=
  if s.seqD.toNat = s.cfg.half - 1 then s.goto .top
  else { s with seqD := s.seqD + 1#3 }.goto .rowClr

/-- `ROW_WAIT` (R176): waits for the last pulse of the half-row; no step while `STA.EMPT = 0`. -/
def execRowWait (s : State) : Outcome :=
  match s.waitPulseFinished with
  | some t => .next t.afterRow
  | none => .next s

end Sys2Proof.Machine
end

