-- ==== Sys2Proof/Machine/Dispatch.lean ====
section
/-! DEFINITION. One arm per row of spec/opcode_table.json. -/

namespace Sys2Proof.Machine

def exec (i : Instr) (s : State) : Host.Outcome State Fault Refusal :=
  match i with
  | .setpixel f x y r g b => Sys2Proof.Machine.execSetpixel f x y r g b s
  | .fill f r g b => Sys2Proof.Machine.execFill f r g b s
  | .clear f => Sys2Proof.Machine.execClear f s
  | .setpwmbits f v => Sys2Proof.Machine.execSetpwmbits f v s
  | .setbrightness f v => Sys2Proof.Machine.execSetbrightness f v s
  | .setlumcorrect f v => Sys2Proof.Machine.execSetlumcorrect f v s
  | .width => Sys2Proof.Machine.execWidth s
  | .height => Sys2Proof.Machine.execHeight s
  | .createframe => Sys2Proof.Machine.execCreateframe s
  | .swaponvsync f => Sys2Proof.Machine.execSwaponvsync f s
  | .shutdown => Sys2Proof.Machine.execShutdown s
  | .top => Sys2Proof.Machine.execTop s
  | .rowClr => Sys2Proof.Machine.execRowClr s
  | .rowSet => Sys2Proof.Machine.execRowSet s
  | .colClr => Sys2Proof.Machine.execColClr s
  | .colData => Sys2Proof.Machine.execColData s
  | .colClk => Sys2Proof.Machine.execColClk s
  | .planeClr => Sys2Proof.Machine.execPlaneClr s
  | .planeWait => Sys2Proof.Machine.execPlaneWait s
  | .strobeSet => Sys2Proof.Machine.execStrobeSet s
  | .strobeClr => Sys2Proof.Machine.execStrobeClr s
  | .pulse => Sys2Proof.Machine.execPulse s
  | .rowWait => Sys2Proof.Machine.execRowWait s
  | .teardown => Sys2Proof.Machine.execTeardown s
  | .halt => Sys2Proof.Machine.execHalt s

end Sys2Proof.Machine
end

