-- ==== Sys2Proof/Machine/Turns.lean ====
section
/-! DEFINITION. The turns of the agents (spec/00_scope.md R10, spec/30_encoding.md R94): which agent moves, and what its turn does.
A turn given to an agent with no enabled step changes nothing (log entry 12). -/

namespace Sys2Proof.Machine

/-- Which agent takes this turn: the next of `agenda`, else a free value (R10, R46, U12; log entry 1). -/
def State.takeTurn (s : State) : Agent × State :=
  match s.agenda with
  | a :: rest => (a, { s with agenda := rest })
  | [] => (Config.freeTurn s.freeCount, { s with freeCount := s.freeCount + 1 })

/-- `HOST`: presents the next word, only when `host = IDLE` and no word is waiting (R94); the word is an input, the next of
`hostWords`, else a free value (R46; log entry 2). -/
def State.hostTurn (s : State) : State :=
  match s.host, s.cmd, s.hostWords with
  | .idle, none, w :: ws => { s with cmd := some w, hostWords := ws }
  | .idle, none, [] => { s with cmd := some (Config.freeWord s.freeCount), freeCount := s.freeCount + 1 }
  | _, _, _ => s

/-- One presented word, the whole order of checks (R244): the terminal values of `run` before the word is decoded, then the
decoding, then the command. -/
def runWord (w : CmdWord) (s : State) : Outcome :=
  match s.portCheck with
  | some st => .next (s.reject st)
  | none =>
    match decodeCmd w with
    | .ok i => exec i s
    | .error _ => .next (s.reject .errIllegal)

/-- `CMD`: executes the presented word (R94), or completes a blocked `SWAPONVSYNC` (R220) or `SHUTDOWN` (R225). -/
def State.cmdTurn (s : State) : Outcome :=
  match s.host with
  | .idle =>
    match s.cmd with
    | some w => runWord w { s with cmd := none }
    | none => .next s
  | .waitSwap =>
    match s.swapRet with
    | some g => .next (s.completeSwap g)
    | none => .next s
  | .waitStop => if s.run = .stopped then .next s.completeStop else .next s

/-- `SEQ`: the micro-operation `seq_pc` names (R32, R164). -/
def State.seqTurn (s : State) : Outcome := exec s.seqPc.instr s

/-- `PT`: one timer tick (R200). -/
def State.ptTurn (s : State) : Outcome := outcomeOf s.tick

/-- `T1M`: the free-running counter, modulo `2^32` (R43, R258). -/
def State.t1mTurn (s : State) : State := { s with t1mhz := s.t1mhz + 1#32 }

/-- One turn of an agent. -/
def State.turn (s : State) : Agent → Outcome
  | .host => .next s.hostTurn
  | .cmd => s.cmdTurn
  | .seq => s.seqTurn
  | .pt => s.ptTurn
  | .t1m => .next s.t1mTurn

/-- The instruction placed where the next turn fetches it: a command word in the command register of an idle port, a phase code
in `seq_pc`; the next turn goes to the agent that executes it (log entry 18). A phase code that names no phase cannot be stored
(U8) and leaves `seq_pc`. -/
def State.place (s : State) : CodeWord → State
  | .cmd w => { s with host := .idle, cmd := some w, agenda := .cmd :: s.agenda }
  | .phase c =>
    match decodePhase c with
    | .ok p => { s with seqPc := p, agenda := .seq :: s.agenda }
    | .error _ => s

end Sys2Proof.Machine
end

