-- ==== Sys2Proof/Machine/Step.lean ====
section
/-! DEFINITION. One step of the machine: one turn of one agent (spec/00_scope.md R10), under a legal configuration (R7). -/

namespace Sys2Proof.Machine

/-- One step. A configuration that is not legal is refused (R7); else the next agent takes its turn. -/
def step (s : State) : Host.Outcome State Fault Refusal :=
  if s.cfg.legal then s.takeTurn.2.turn s.takeTurn.1 else .refused .illegalConfig

/-- The state in which the very next step fetches and runs the given table word; a fixed name of the host's (log entry 18). -/
def State.withFetchWord (s : State) (nbits w : Nat) : State :=
  match codeWordOf nbits w with
  | some c => s.place c
  | none => s

end Sys2Proof.Machine
end

