-- ==== Sys2Proof/Machine/Panel.lean ====
section
/-! DEFINITION. The LED panel as an observer (spec/42_scan_sequencer.md R183, informative: the panel is outside the block, R4 f).
It reads the events and the levels the block makes and is read by no step. -/

namespace Sys2Proof.Machine

/-- The panel's shift registers and latches, all six colour lines together: bit `c` of the word at position `j` is `sr[c][j]`,
respectively `latch[c][j]` (R183). -/
structure Panel where
  sr : List Word
  latch : List Word
  deriving DecidableEq, Repr

/-- A rising clock edge: the colour levels enter at index 0, the others move along, the last falls out (R183, G6). -/
def Panel.shift (c : Config) (p : Panel) (gpio : Word) : Panel :=
  { p with sr := (gpio &&& colorMask) :: p.sr.take (c.columns - 1) }

/-- What one event does to the panel, `gpio` being the levels before it: a rising clock edge shifts, a rising strobe edge
latches (R183). -/
def Panel.onEvent (c : Config) (gpio : Word) (p : Panel) : Event → Panel
  | .gpioSet m =>
    let q := if m.getLsbD 17 && !gpio.getLsbD 17 then p.shift c gpio else p
    if m.getLsbD 4 && !gpio.getLsbD 4 then { q with latch := q.sr } else q
  | .gpioClr _ => p
  | .ptWrite _ => p

/-- The levels after an event (R66). -/
def gpioAfter (gpio : Word) : Event → Word
  | .gpioSet m => gpio ||| m
  | .gpioClr m => gpio &&& ~~~m
  | .ptWrite _ => gpio

/-- The panel after a list of events, starting from the levels `gpio`. -/
def Panel.replay (c : Config) : Word → Panel → List Event → Panel
  | _, p, [] => p
  | gpio, p, e :: es => Panel.replay c (gpioAfter gpio e) (p.onEvent c gpio e) es

/-- The panel after a step from `s` to `t`: the events the step appended. -/
def Panel.watch (p : Panel) (s t : State) : Panel := p.replay s.cfg s.gpio (t.trace.drop s.trace.length)

/-- The half-row the row-address lines select (R93, R183). -/
def State.litRow (s : State) : Nat := (s.gpio.extractLsb' 22 3).toNat

/-- The physical row a colour line lights: the selected half-row for the lines R1, G1, B1, and `HALF` rows further down for the
lines R2, G2, B2 (R183). -/
def State.litPhysicalRow (s : State) (pin : Nat) : Nat :=
  if pin ∈ [s.cfg.pinR1, s.cfg.pinG1, s.cfg.pinB1] then s.litRow else s.litRow + s.cfg.half

/-- Whether the sub-pixel of colour line `pin` at position `j` of the selected half-row is lit (R183). -/
def State.lit (s : State) (p : Panel) (pin j : Nat) : Bool := s.oe && (p.latch.getD j 0#32).getLsbD pin

end Sys2Proof.Machine
end

