-- ==== Sys2Proof/Safety.lean ====
section
/-! DEFINITION. What counts as a good state and a good run, in the terms claims use: the invariant of every reachable state
(spec/10_state.md R50, spec/42_scan_sequencer.md R177, R178, R182, spec/43_pulse_timer.md R202, spec/70_reset_and_hazards.md R275),
the events of one refresh (R162), and the ways a run is driven. -/

namespace Sys2Proof.Machine

/-- A frame id that names a created frame (R25). -/
abbrev State.created (s : State) (f : FrameId) : Prop := f < s.numCreated

/-- The producer may write the frame: created and not active (R68, R244). -/
abbrev State.writable (s : State) (f : FrameId) : Prop := s.created f ∧ f ≠ s.active

/-- The port takes a command and the block is running (R94, R244). -/
abbrev State.accepting (s : State) : Prop := s.host = .idle ∧ s.run = .scanning

/-- The first word address of frame `f` (R61). -/
abbrev frameBase (c : Config) (f : FrameId) : Nat := f.toNat * c.frameWords

/-- Word address `a` belongs to frame `f` (R61). -/
abbrev inFrame (c : Config) (f : FrameId) (a : Nat) : Prop := frameBase c f ≤ a ∧ a < frameBase c f + c.frameWords

/-- Frame memory keeps its canonical form, lists only words that exist, and the words of created frames carry colour bits only
(R50 a, R60). -/
abbrev State.memOk (s : State) : Prop :=
  s.mem.wf ∧ (∀ c ∈ s.mem, c.1 < s.cfg.memWords) ∧
    ∀ c ∈ s.mem, c.1 < s.numCreated.toNat * s.cfg.frameWords → c.2 &&& ~~~colorMask = 0#32

/-- Legal settings (R50 b). -/
abbrev FrameSettings.ok (c : Config) (st : FrameSettings) : Prop :=
  1 ≤ st.brightness.toNat ∧ st.brightness.toNat ≤ 100 ∧ 1 ≤ st.pwmBits.toNat ∧ st.pwmBits.toNat ≤ c.n

/-- The settings of every created frame are legal (R50 b). -/
abbrev State.settingsOk (s : State) : Prop := ∀ f : FrameId, s.created f → (s.settings f).ok s.cfg

/-- A frame in flight is created and not the active one (R50 c). -/
abbrev State.flightOk (s : State) (o : Option FrameId) : Prop := ∀ g ∈ o, s.writable g

/-- The double-buffer registers (R25 to R28, R50 c, d). -/
abbrev State.handoffOk (s : State) : Prop :=
  1 ≤ s.numCreated.toNat ∧ s.numCreated.toNat ≤ s.cfg.numFrames ∧ s.created s.active ∧
    s.flightOk s.pending ∧ s.flightOk s.swapRet ∧ (s.pending = none ∨ s.swapRet = none) ∧
    (s.host = .waitSwap ↔ (s.pending.isSome ∨ s.swapRet.isSome))

/-- Stopping (R29, R30, R224 to R226, R250, R274, R275). -/
abbrev State.runOk (s : State) : Prop :=
  (s.run = .scanning ↔ s.seqPc ≠ .halt) ∧ (s.seqPc = .teardown → s.stopFlag) ∧
    (s.stopFlag → s.run = .stopped ∨ s.host = .waitStop) ∧ (s.host = .waitStop → s.stopFlag) ∧
    (s.run = .stopped → s.stopFlag ∧ s.host ≠ .waitSwap ∧ s.gpio &&& allMask = 0#32) ∧
    (s.run = .failed → s.host = .idle ∧ s.stopFlag = false ∧ s.trace = [])

/-- Phases in which a plane of the active frame is selected: from `ROW_SET` to the end of the half-row (R177). -/
def selectsPlane : Phase → Bool
  | .colClr | .colData | .colClk | .planeClr | .planeWait | .strobeSet | .strobeClr | .pulse | .rowWait => true
  | .top | .rowClr | .rowSet | .teardown | .halt => false

/-- Counter bounds (R177). -/
abbrev State.countersOk (s : State) : Prop :=
  s.seqD.toNat < s.cfg.half ∧ s.seqP.toNat < s.cfg.n ∧ s.seqX.toNat < s.cfg.columns ∧
    (selectsPlane s.seqPc → s.cfg.n - (s.settings s.active).pwmBits.toNat ≤ s.seqP.toNat)

/-- The timer is quiescent: disabled, FIFO, holding stage and player empty, output inactive (R182, R202 c). -/
abbrev State.quiescent (s : State) : Prop :=
  s.ptEn = false ∧ s.ptFifo = [] ∧ s.ptHold = none ∧ s.ptCur = none ∧ s.oe = false

/-- Phases in which the latch or the row address may change, and those outside the scan: nothing may be lit (R182). -/
def darkPhase : Phase → Bool
  | .top | .rowClr | .rowSet | .strobeSet | .strobeClr | .pulse | .teardown | .halt => true
  | .colClr | .colData | .colClk | .planeClr | .planeWait | .rowWait => false

/-- Nothing of the pulse is left to play: the player is empty or plays a zero entry, and the output is inactive (R200, R201). -/
abbrev State.pulseOver (s : State) : Prop := s.oe = false ∧ ∀ c ∈ s.ptCur, c.on = 0#32

/-- The queue of a running pulse: what is still to play ends with the two sentinels, and once the FIFO is empty the window is over
(R201, R202 b). -/
abbrev State.pulseShape (s : State) : Prop :=
  (s.ptHold = none → (s.ptCur = none ∧ [0#32, 0#32] <:+ s.ptFifo) ∨ (s.ptFifo = [] ∧ s.pulseOver)) ∧
    ∀ e ∈ s.ptHold,
      [0#32, 0#32] <:+ s.ptFifo ∨ (e = 0#32 ∧ (s.ptFifo = [0#32] ∨ (s.ptFifo = [] ∧ s.pulseOver)))

/-- The pulse timer (R35, R37, R182, R200, R202). -/
abbrev State.timerOk (s : State) : Prop :=
  s.ptFifo.length ≤ s.cfg.fifoDepth ∧ (∀ c ∈ s.ptCur, c.on ≤ c.per ∧ 1#32 ≤ c.per) ∧
    (darkPhase s.seqPc → s.quiescent) ∧ (s.ptEn = false → s.quiescent) ∧
    (s.ptEn → s.ptRng ≠ 0#32 ∧ s.pulseShape)

/-- The mask an event writes to the GPIO registers; a timer write touches no pin (R11). -/
def Event.mask : Event → Word
  | .gpioSet m => m
  | .gpioClr m => m
  | .ptWrite _ => 0#32

/-- The mask an event writes lies within the pins the block owns (R178). -/
abbrev Event.maskOk (e : Event) : Prop := e.mask &&& ~~~allMask = 0#32

/-- The invariant of every reachable state. -/
structure Inv (s : State) : Prop where
  legal : s.cfg.legal
  memOk : s.memOk
  settingsOk : s.settingsOk
  handoffOk : s.handoffOk
  runOk : s.runOk
  countersOk : s.countersOk
  timerOk : s.timerOk
  masksOk : ∀ e ∈ s.trace, e.maskOk

/-- Columns clocked out, one triple of writes each (R162 step 2a), for the words `w` of the columns in order. -/
def columnEvents (w : Nat → Word) (n : Nat) : List Event :=
  (List.range n).flatMap fun x => [.gpioClr colorClkMask, .gpioSet (w x &&& colorMask), .gpioSet clkMask]

/-- The events of one plane of one half-row (R162 steps 2a to 2d). -/
def planeEvents (c : Config) (w : Nat → Word) (p : Nat) : List Event :=
  columnEvents w c.columns ++
    [.gpioClr colorClkMask, .ptWrite (.ctl .ctlQuiet), .gpioSet strobeMask, .gpioClr strobeMask] ++
    (pulseWrites c p).map .ptWrite

/-- The events of one half-row of frame `f` with the active planes `ps` (R162 steps 1 to 3). -/
def rowEvents (c : Config) (m : Memory) (f : FrameId) (ps : List Nat) (d : Nat) : List Event :=
  [.gpioClr (~~~rowAddr (BitVec.ofNat 3 d) &&& rowMask), .gpioSet (rowAddr (BitVec.ofNat 3 d))] ++
    ps.flatMap (fun p => planeEvents c (fun x => m.read (cellAddr c f.toNat d p x)) p) ++ [.ptWrite (.ctl .ctlQuiet)]

/-- The events of one full refresh of the active frame (R162). -/
def State.refreshEvents (s : State) : List Event :=
  (List.range s.cfg.half).flatMap
    (rowEvents s.cfg s.mem s.active (activePlanes s.cfg.n (s.settings s.active).pwmBits))

/-- `k` turns of `SEQ`. -/
def State.seqTurns : Nat → State → Outcome
  | 0, s => .next s
  | k + 1, s =>
    match s.seqTurn with
    | .next t => State.seqTurns k t
    | .fault r => .fault r
    | .refused r => .refused r

/-- `k` timer ticks. -/
def State.ticks : Nat → State → Except Fault State
  | 0, s => .ok s
  | k + 1, s =>
    match s.tick with
    | .ok t => State.ticks k t
    | .error e => .error e

/-- `SEQ` has no enabled step: it waits for `STA.EMPT` (R164). -/
def State.seqWaits (s : State) : Bool :=
  (decide (s.seqPc = .planeWait) || decide (s.seqPc = .rowWait)) && !s.staEmpt

/-- One turn under the schedule in which `SEQ` steps whenever it is enabled and `PT` ticks only while `SEQ` waits
(spec/95_test_vectors.md V62). -/
def State.refreshTurn (s : State) : Outcome := if s.seqWaits then s.ptTurn else s.seqTurn

/-- `k` turns under that schedule. -/
def State.refreshTurns : Nat → State → Outcome
  | 0, s => .next s
  | k + 1, s =>
    match s.refreshTurn with
    | .next t => State.refreshTurns k t
    | .fault r => .fault r
    | .refused r => .refused r

/-- The number of timer ticks, among `k` turns under that schedule, for which the sub-pixel of colour line `pin` at position `j` of
physical row `y` is lit, the panel being watched from `p` on (R183, R184). -/
def State.litTicks (pin j y : Nat) : Nat → State → Panel → Nat
  | 0, _, _ => 0
  | k + 1, s, p =>
    match s.refreshTurn with
    | .next t =>
      (if s.seqWaits && t.lit p pin j && t.litPhysicalRow pin == y then 1 else 0) + State.litTicks pin j y k t (p.watch s t)
    | .fault _ => 0
    | .refused _ => 0

/-- Outcomes of commands run one after the other by `exec`. -/
def execAll : List Instr → State → Outcome
  | [], s => .next s
  | i :: is, s =>
    match exec i s with
    | .next t => execAll is t
    | .fault r => .fault r
    | .refused r => .refused r

/-- The number formed from the stored colour bits of one channel, over the planes `ps` (R128). -/
def storedValue (m : Memory) (c : Config) (f d x pin : Nat) (ps : List Nat) : Nat :=
  (ps.map fun p => if (m.read (cellAddr c f d p x)).getLsbD pin then 2 ^ p else 0).sum

/-- The frame operand of the commands that write a frame or its settings (R135 (5)). -/
def writesFrame : Instr → Option FrameId
  | .setpixel f _ _ _ _ _ => some f
  | .fill f _ _ _ => some f
  | .clear f => some f
  | .setpwmbits f _ => some f
  | .setbrightness f _ => some f
  | .setlumcorrect f _ => some f
  | .width => none
  | .height => none
  | .createframe => none
  | .swaponvsync _ => none
  | .shutdown => none
  | .top => none
  | .rowClr => none
  | .rowSet => none
  | .colClr => none
  | .colData => none
  | .colClk => none
  | .planeClr => none
  | .planeWait => none
  | .strobeSet => none
  | .strobeClr => none
  | .pulse => none
  | .rowWait => none
  | .teardown => none
  | .halt => none

/-- The real-valued curve of R121, exactly: `v = c * b / 255`, the linear part for `v <= 8`, else the cubic part. -/
def cieReal (n b c : Nat) : ℚ :=
  let v : ℚ := c * b / 255
  (2 ^ n - 1) * (if v ≤ 8 then v / (9023 / 10) else ((v + 16) / 116) ^ 3)

end Sys2Proof.Machine
end

