-- ==== Sys2Proof/Certificates/Slice0/Obligations.lean ====
section
/-! DEFINITION. The statements for the provers, in the order of OBLIGATIONS.json: encodings, steps, commands, the luminance mapping,
the sequencer, the timer, and the rules of the whole machine. -/

open Sys2Proof Sys2Proof.Machine

/-! ## Encodings -/

/-- Words of spec/95_test_vectors.md decode to the instructions they stand for, and phase codes to their phases (R95, R96, R32). -/
def Obligations.DecodesWordsOfTheSpec : Prop :=
  decode (.cmd 0x11000100030080FF#64) = .ok (.setpixel 1#4 1#16 3#16 0#8 128#8 255#8) ∧
    decode (.cmd 0x21000000000AC84D#64) = .ok (.fill 1#4 10#8 200#8 77#8) ∧
    decode (.cmd 0x3100000000000000#64) = .ok (.clear 1#4) ∧
    decode (.cmd 0x5100000000000064#64) = .ok (.setbrightness 1#4 100#8) ∧
    decode (.cmd 0xAF00000000000000#64) = .ok (.swaponvsync 0xF#4) ∧
    decode (.cmd 0x7100000000000000#64) = .error .reservedField ∧
    decode (.cmd 0xC000000000000000#64) = .error .reservedOpcode ∧
    decode (.phase 0b1010#4) = .ok .pulse ∧
    decode (.phase 0b1110#4) = .error .unusedPhaseCode

/-- Decode and encode agree: every well-formed instruction, with every operand at every value, decodes from its own encoding
(R95, R96, R32). -/
def Obligations.DecodeOfEncodeIsTheInstruction : Prop :=
  ∀ i : Instr, i.wellFormed = true → decode (encode i) = .ok i

/-- The other direction: a word or a phase code that decodes is the encoding of what it decodes to, so no bit is dropped (R95 to
R97, R100, R32). -/
def Obligations.EncodeOfDecodeIsTheWord : Prop :=
  ∀ (c : CodeWord) (i : Instr), decode c = .ok i → encode i = c

/-- R97: a command word is accepted exactly when it matches a row of the match and mask table, as that row's command, and it
matches at most one row. -/
def Obligations.AcceptedExactlyWhenOneRowMatches : Prop :=
  ∀ w : CmdWord,
    (∀ i, decodeCmd w = .ok i → ∃ r ∈ cmdTable, r.selects w = true ∧ r.mnemonic = i.mnemonic) ∧
      (∀ r ∈ cmdTable, r.selects w = true → ∃ i, decodeCmd w = .ok i ∧ i.mnemonic = r.mnemonic) ∧
      ∀ r ∈ cmdTable, ∀ r' ∈ cmdTable, r.selects w = true → r'.selects w = true → r = r'

/-! ## Steps -/

/-- A step runs the decoded command: where it is the command executor's turn, the port is idle and the presented word decodes to
`i`, the step is `exec i` after the word has left the command register (R94). The turn list and the register's leaving empty are the
model's form (log entries 1 and 2). -/
def Obligations.StepRunsThePresentedCommand : Prop :=
  ∀ (s : State) (rest : List Agent) (w : CmdWord) (i : Instr),
    s.cfg.legal = true → s.agenda = .cmd :: rest → s.host = .idle → s.cmd = some w → decodeCmd w = .ok i →
      step s = exec i { s with agenda := rest, cmd := none }

/-- A step runs the phase `seq_pc` names: where it is the sequencer's turn, the step is `exec` of the instruction the code of
`seq_pc` decodes to (R32, R164). The turn list is the model's form (log entry 1). -/
def Obligations.StepRunsTheSequencerPhase : Prop :=
  ∀ (s : State) (rest : List Agent) (i : Instr),
    s.cfg.legal = true → s.agenda = .seq :: rest → decode (.phase s.seqPc.code) = .ok i →
      step s = exec i { s with agenda := rest }

/-- The turns of the agents that run no instruction: a tick of the timer (R200), one count of the 1 MHz counter modulo `2^32`
(R258), and the producer presenting a word, only at an idle port with no word waiting (R94). The model's choices here: the words
come from a list, and where it is empty some word is presented, a free value (log entry 2); the producer's turn at any other port,
where it has no step, changes nothing but the turn list (log entry 12, DEDUCED). -/
def Obligations.OtherAgentsTakeTheirTurn : Prop :=
  ∀ (s : State) (rest : List Agent), s.cfg.legal = true →
    (s.agenda = .pt :: rest → step s = outcomeOf { s with agenda := rest }.tick) ∧
      (s.agenda = .t1m :: rest → step s = .next { s with agenda := rest, t1mhz := s.t1mhz + 1#32 }) ∧
      (∀ w ws, s.agenda = .host :: rest → s.host = .idle → s.cmd = none → s.hostWords = w :: ws →
        step s = .next { s with agenda := rest, cmd := some w, hostWords := ws }) ∧
      (s.agenda = .host :: rest → s.host = .idle → s.cmd = none → s.hostWords = [] →
        ∃ w, step s = .next { s with agenda := rest, cmd := some w, freeCount := s.freeCount + 1 }) ∧
      (s.agenda = .host :: rest → s.host ≠ .idle ∨ s.cmd ≠ none → step s = .next { s with agenda := rest })

/-- The words that are refused before any command runs: the state of the block is tested before the word is decoded (R244 checks 1 to
3, R248, R249, R250). `ERR_FATAL` after a failed construction and `ERR_STOPPED` after shutdown, whatever the word; while the block
runs, `ERR_ILLEGAL` for a word that selects no command. Nothing else changes but the command register and the turn list, and
these two are the model's form: the word leaves the register (log entry 2, DEDUCED), the list advances (log entry 1). A word that selects a command while the
block runs is the subject of `StepRunsThePresentedCommand`. -/
def Obligations.WordsRefusedBeforeTheirMeaning : Prop :=
  ∀ (s : State) (rest : List Agent) (w : CmdWord),
    s.cfg.legal = true → s.agenda = .cmd :: rest → s.host = .idle → s.cmd = some w →
      (s.run = .failed → step s = .next { s with agenda := rest, cmd := none, rsp := 0x50000000#32 }) ∧
        (s.run = .stopped → step s = .next { s with agenda := rest, cmd := none, rsp := 0x40000000#32 }) ∧
        (∀ e, s.run = .scanning → decodeCmd w = .error e →
          step s = .next { s with agenda := rest, cmd := none, rsp := 0x20000000#32 })

/-- R244, checks 4 and 5 for the commands that write a frame or its settings, and for a non-null swap, with the terminal checks
before them: the first failing check names the status, nothing but the response register changes (R241, R245, R246), whatever
the other operands are. -/
def Obligations.FrameChecksInOrder : Prop :=
  ∀ (s : State) (i : Instr) (f : FrameId), s.host = .idle → (writesFrame i = some f ∨ (i = .swaponvsync f ∧ f ≠ 0xF#4)) →
    (s.run = .failed → exec i s = .next { s with rsp := 0x50000000#32 }) ∧
      (s.run = .stopped → exec i s = .next { s with rsp := 0x40000000#32 }) ∧
      (s.run = .scanning → ¬ s.created f → exec i s = .next { s with rsp := 0x30000000#32 }) ∧
      (s.run = .scanning → s.created f → f = s.active → exec i s = .next { s with rsp := 0x60000000#32 })

/-- While the port is blocked it accepts nothing (R31, R219): the model's reading is that a command executed then would change
nothing (the model's choice, log entry 15; the block never executes one then, R94). -/
def Obligations.BlockedPortAcceptsNothing : Prop :=
  ∀ (s : State) (i : Instr), i.format = .cmd → s.host ≠ .idle → exec i s = .next s

/-! ## Canvas commands -/

/-- `SETPIXEL` with coordinates in range (R136), with R126 spelled out: `m` is the table at the frame's brightness where the
correction is on and the linear mode where it is off, and `pr`, `pg`, `pb` are the pins of the upper half-panel for `y < HALF`, of
the lower otherwise. In each active plane these three bits of the word take the plane's bits of the mapped values, every other bit
of that word is kept, every other word is kept, and nothing else changes but the response. -/
def Obligations.SetpixelWritesItsCells : Prop :=
  ∀ (s : State) (f : FrameId) (x y : BitVec 16) (r g b : BitVec 8) (m : BitVec 8 → Nat) (pr pg pb : Nat),
    Inv s → s.accepting → s.writable f → x.toNat < s.cfg.columns → y.toNat < s.cfg.totalRows →
      (∀ c, m c = if (s.settings f).lum = true then lutCie s.cfg.n (s.settings f).brightness.toNat c.toNat
        else linMap s.cfg.n (s.settings f).brightness.toNat c.toNat) →
      (pr, pg, pb) = (if y.toNat < s.cfg.half then (s.cfg.pinR1, s.cfg.pinG1, s.cfg.pinB1)
        else (s.cfg.pinR2, s.cfg.pinG2, s.cfg.pinB2)) →
      ∃ t, exec (.setpixel f x y r g b) s = .next t ∧ t = { s with mem := t.mem, rsp := 0#32 } ∧
        (∀ p i, s.cfg.n - (s.settings f).pwmBits.toNat ≤ p → p < s.cfg.n →
          (t.mem.read (cellAddr s.cfg f.toNat (y.toNat % s.cfg.half) p x.toNat)).getLsbD i =
            if i = pr then (m r).testBit p
            else if i = pg then (m g).testBit p
            else if i = pb then (m b).testBit p
            else (s.mem.read (cellAddr s.cfg f.toNat (y.toNat % s.cfg.half) p x.toNat)).getLsbD i) ∧
        ∀ a, (∀ p, s.cfg.n - (s.settings f).pwmBits.toNat ≤ p → p < s.cfg.n →
            a ≠ cellAddr s.cfg f.toNat (y.toNat % s.cfg.half) p x.toNat) →
          t.mem.read a = s.mem.read a

/-- `SETPIXEL` with a coordinate out of range (R136, R243, C4): ignored with `OK`; nothing but the response changes. -/
def Obligations.SetpixelOutOfRangeIsIgnored : Prop :=
  ∀ (s : State) (f : FrameId) (x y : BitVec 16) (r g b : BitVec 8),
    s.accepting → s.writable f → (s.cfg.columns ≤ x.toNat ∨ s.cfg.totalRows ≤ y.toNat) →
      exec (.setpixel f x y r g b) s = .next { s with rsp := 0#32 }

/-- R128, the round trip, with R126 and the half-panel of R136 spelled out as in `SetpixelWritesItsCells`: after a `SETPIXEL` in range,
the number formed from the stored colour bits of each channel is the mapped value with its `N - k` low bits cleared, so it falls
short of it by less than `2^(N - k)`; and the table is not injective: at `N = 8` and brightness 100 the inputs 0 to 9 all give 0. -/
def Obligations.StoredBitsGiveTheMappedValue : Prop :=
  (∀ c, c ≤ 9 → lutCie 8 100 c = 0) ∧
    ∀ (s : State) (f : FrameId) (x y : BitVec 16) (r g b : BitVec 8) (m : BitVec 8 → Nat) (pr pg pb : Nat),
      Inv s → s.accepting → s.writable f → x.toNat < s.cfg.columns → y.toNat < s.cfg.totalRows →
        (∀ c, m c = if (s.settings f).lum = true then lutCie s.cfg.n (s.settings f).brightness.toNat c.toNat
          else linMap s.cfg.n (s.settings f).brightness.toNat c.toNat) →
        (pr, pg, pb) = (if y.toNat < s.cfg.half then (s.cfg.pinR1, s.cfg.pinG1, s.cfg.pinB1)
          else (s.cfg.pinR2, s.cfg.pinG2, s.cfg.pinB2)) →
        ∃ t, exec (.setpixel f x y r g b) s = .next t ∧
          ∀ ch ∈ [(pr, m r), (pg, m g), (pb, m b)],
            storedValue t.mem s.cfg f.toNat (y.toNat % s.cfg.half) x.toNat ch.1
                  (activePlanes s.cfg.n (s.settings f).pwmBits) =
                ch.2 - ch.2 % 2 ^ (s.cfg.n - (s.settings f).pwmBits.toNat) ∧
              ch.2 - storedValue t.mem s.cfg f.toNat (y.toNat % s.cfg.half) x.toNat ch.1
                    (activePlanes s.cfg.n (s.settings f).pwmBits) <
                2 ^ (s.cfg.n - (s.settings f).pwmBits.toNat)

/-- R138, idempotence: a `SETPIXEL` that has just been executed, executed again, leaves the state as it is. -/
def Obligations.SetpixelIsIdempotent : Prop :=
  ∀ (s : State) (f : FrameId) (x y : BitVec 16) (r g b : BitVec 8), Inv s →
    ∃ t, exec (.setpixel f x y r g b) s = .next t ∧ exec (.setpixel f x y r g b) t = .next t

/-- `FILL` (R140), with R126 spelled out as in `SetpixelWritesItsCells`: in every cell of the active planes the six colour bits take
the plane's bits of the mapped values, in both half-panels; every other bit and every other word, the planes below the active
depth among them (R139), is kept; nothing else changes but the response. -/
def Obligations.FillWritesTheActivePlanes : Prop :=
  ∀ (s : State) (f : FrameId) (r g b : BitVec 8) (m : BitVec 8 → Nat), Inv s → s.accepting → s.writable f →
    (∀ c, m c = if (s.settings f).lum = true then lutCie s.cfg.n (s.settings f).brightness.toNat c.toNat
      else linMap s.cfg.n (s.settings f).brightness.toNat c.toNat) →
    ∃ t, exec (.fill f r g b) s = .next t ∧ t = { s with mem := t.mem, rsp := 0#32 } ∧
      (∀ d p x i, d < s.cfg.half → s.cfg.n - (s.settings f).pwmBits.toNat ≤ p → p < s.cfg.n → x < s.cfg.columns →
        (t.mem.read (cellAddr s.cfg f.toNat d p x)).getLsbD i =
          if i = s.cfg.pinR1 ∨ i = s.cfg.pinR2 then (m r).testBit p
          else if i = s.cfg.pinG1 ∨ i = s.cfg.pinG2 then (m g).testBit p
          else if i = s.cfg.pinB1 ∨ i = s.cfg.pinB2 then (m b).testBit p
          else (s.mem.read (cellAddr s.cfg f.toNat d p x)).getLsbD i) ∧
      ∀ a, (∀ d p x, d < s.cfg.half → s.cfg.n - (s.settings f).pwmBits.toNat ≤ p → p < s.cfg.n → x < s.cfg.columns →
          a ≠ cellAddr s.cfg f.toNat d p x) →
        t.mem.read a = s.mem.read a

/-- R141, equivalence: `FILL` gives the state that `SETPIXEL` over every coordinate gives, in any order (the list names every
coordinate of the panel; it may repeat one, or name some outside it). -/
def Obligations.FillIsSetpixelEverywhere : Prop :=
  ∀ (s : State) (f : FrameId) (r g b : BitVec 8) (l : List (BitVec 16 × BitVec 16)),
    Inv s → s.accepting → s.writable f →
      (∀ x y : BitVec 16, x.toNat < s.cfg.columns → y.toNat < s.cfg.totalRows → (x, y) ∈ l) →
      ∃ t, exec (.fill f r g b) s = .next t ∧ execAll (l.map fun xy => .setpixel f xy.1 xy.2 r g b) s = .next t

/-- `CLEAR` (R142): every word of the frame reads zero, every plane whatever the depth is; every other word, the settings and all
else are kept, but the response. -/
def Obligations.ClearZeroesTheFrame : Prop :=
  ∀ (s : State) (f : FrameId), Inv s → s.accepting → s.writable f →
    ∃ t, exec (.clear f) s = .next t ∧ t = { s with mem := t.mem, rsp := 0#32 } ∧
      ∀ a, t.mem.read a = if inFrame s.cfg f a then 0#32 else s.mem.read a

/-- R143: at full depth `CLEAR f` and `FILL f, 0, 0, 0` give the same memory; below full depth the planes `FILL` skips keep their
words where `CLEAR` zeroes them. -/
def Obligations.ClearAgainstFillWithBlack : Prop :=
  ∀ (s : State) (f : FrameId), Inv s → s.accepting → s.writable f →
    ∃ t u, exec (.clear f) s = .next t ∧ exec (.fill f 0#8 0#8 0#8) s = .next u ∧
      ((s.settings f).pwmBits.toNat = s.cfg.n → t.mem = u.mem) ∧
      ∀ d p x, d < s.cfg.half → p < s.cfg.n - (s.settings f).pwmBits.toNat → x < s.cfg.columns →
        t.mem.read (cellAddr s.cfg f.toNat d p x) = 0#32 ∧
          u.mem.read (cellAddr s.cfg f.toNat d p x) = s.mem.read (cellAddr s.cfg f.toNat d p x)

/-- `SETPWMBITS`, `SETBRIGHTNESS`, `SETLUMCORRECT` with an argument in range (R144, R146, R148): the one setting of the one frame takes
the argument; frame memory, the other settings and frames and all else are kept, but the response (R282). -/
def Obligations.SettingsTakeTheirArgument : Prop :=
  ∀ (s : State) (f : FrameId) (v : BitVec 8), s.cfg.legal = true → s.accepting → s.writable f →
    (1 ≤ v.toNat → v.toNat ≤ s.cfg.n →
      ∃ t, exec (.setpwmbits f v) s = .next t ∧ t = { s with frames := t.frames, rsp := 0#32 } ∧
        (t.settings f).pwmBits.toNat = v.toNat ∧ (t.settings f).brightness = (s.settings f).brightness ∧
        (t.settings f).lum = (s.settings f).lum ∧ ∀ g, g ≠ f → t.settings g = s.settings g) ∧
    (1 ≤ v.toNat → v.toNat ≤ 100 →
      ∃ t, exec (.setbrightness f v) s = .next t ∧ t = { s with frames := t.frames, rsp := 0#32 } ∧
        (t.settings f).brightness.toNat = v.toNat ∧ (t.settings f).pwmBits = (s.settings f).pwmBits ∧
        (t.settings f).lum = (s.settings f).lum ∧ ∀ g, g ≠ f → t.settings g = s.settings g) ∧
    (v.toNat ≤ 1 →
      ∃ t, exec (.setlumcorrect f v) s = .next t ∧ t = { s with frames := t.frames, rsp := 0#32 } ∧
        ((t.settings f).lum = true ↔ v.toNat = 1) ∧ (t.settings f).pwmBits = (s.settings f).pwmBits ∧
        (t.settings f).brightness = (s.settings f).brightness ∧ ∀ g, g ≠ f → t.settings g = s.settings g)

/-- R247: an argument out of range is refused with `FAIL_PARAM` and no mutation. -/
def Obligations.ArgumentsOutOfRangeAreRefused : Prop :=
  ∀ (s : State) (f : FrameId) (v : BitVec 8), s.accepting → s.writable f →
    (v.toNat = 0 ∨ s.cfg.n < v.toNat → exec (.setpwmbits f v) s = .next { s with rsp := 0x10000000#32 }) ∧
      (v.toNat = 0 ∨ 100 < v.toNat → exec (.setbrightness f v) s = .next { s with rsp := 0x10000000#32 }) ∧
      (1 < v.toNat → exec (.setlumcorrect f v) s = .next { s with rsp := 0x10000000#32 })

/-- `WIDTH` and `HEIGHT` answer `COLUMNS` and `TOTAL_ROWS` with status `OK` and write only the response register (R150, R151). -/
def Obligations.QueriesAnswerTheGeometry : Prop :=
  ∀ s : State, s.cfg.legal = true → s.accepting →
    (∃ t, exec .width s = .next t ∧ t = { s with rsp := t.rsp } ∧ t.rsp.toNat = s.cfg.columns) ∧
      ∃ t, exec .height s = .next t ∧ t = { s with rsp := t.rsp } ∧ t.rsp.toNat = s.cfg.totalRows

/-! ## Double buffer -/

/-- `CREATEFRAME` with a frame left (R216): the next id is answered and counted, its words are zero, its settings are brightness
100, depth `N`, correction on; the other words and settings and all else are kept. -/
def Obligations.CreateframeMakesTheNextFrame : Prop :=
  ∀ s : State, Inv s → s.accepting → s.numCreated.toNat ≠ s.cfg.numFrames →
    ∃ t, exec .createframe s = .next t ∧
      t = { s with mem := t.mem, frames := t.frames, numCreated := t.numCreated, rsp := t.rsp } ∧
      t.rsp.toNat = s.numCreated.toNat ∧ t.numCreated.toNat = s.numCreated.toNat + 1 ∧
      (t.settings s.numCreated).brightness = 100#7 ∧ (t.settings s.numCreated).pwmBits.toNat = s.cfg.n ∧
      (t.settings s.numCreated).lum = true ∧ (∀ g, g ≠ s.numCreated → t.settings g = s.settings g) ∧
      ∀ a, t.mem.read a = if inFrame s.cfg s.numCreated a then 0#32 else s.mem.read a

/-- `CREATEFRAME` with every frame created (R216, R249): `ERR_NOFRAME`, no change. -/
def Obligations.CreateframeIsExhausted : Prop :=
  ∀ s : State, s.accepting → s.numCreated.toNat = s.cfg.numFrames →
    exec .createframe s = .next { s with rsp := 0x70000000#32 }

/-- `SWAPONVSYNC` of the null frame (R218): answers the active frame and changes nothing else. -/
def Obligations.PeekAnswersTheActiveFrame : Prop :=
  ∀ s : State, s.accepting → ∃ t, exec (.swaponvsync 0xF#4) s = .next t ∧ t = { s with rsp := t.rsp } ∧
    t.rsp.toNat = s.active.toNat

/-- R219, the issue of a swap of a created frame that is not active: the frame is published as pending, the port is blocked, there
is no response yet, and from then on the producer's turn presents nothing. -/
def Obligations.SwapPublishesTheFrame : Prop :=
  ∀ (s : State) (f : FrameId), s.accepting → f ≠ 0xF#4 → s.writable f →
    exec (.swaponvsync f) s = .next { s with pending := some f, host := .waitSwap } ∧
      State.hostTurn { s with pending := some f, host := .waitSwap } = { s with pending := some f, host := .waitSwap }

/-- R220, R222, R227: a pending frame is picked up at `TOP`, and the blocked swap then completes: the frame shown before is
answered, is not the one swapped in, and may be written again; the new frame is active; nothing is in flight. -/
def Obligations.SwapHandsBackTheOldFrame : Prop :=
  ∀ (s : State) (g : FrameId) (rest : List Agent),
    Inv s → s.seqPc = .top → s.stopFlag = false → s.pending = some g → s.agenda = .seq :: .cmd :: rest →
      ∃ t u, step s = .next t ∧ step t = .next u ∧
        t = { s with agenda := .cmd :: rest, swapRet := some s.active, active := g, pending := none, seqD := 0#3,
                     seqPc := .rowClr } ∧
        u = { t with agenda := rest, rsp := u.rsp, swapRet := none, host := .idle } ∧
        u.rsp.toNat = s.active.toNat ∧ g ≠ s.active ∧ u.writable s.active

/-- R224: `SHUTDOWN` sets the stop flag and blocks the port. -/
def Obligations.ShutdownSetsTheStopFlag : Prop :=
  ∀ s : State, s.accepting → exec .shutdown s = .next { s with stopFlag := true, host := .waitStop }

/-- R222, R226, R225, R275: with the stop flag set, from `TOP` two turns of the sequencer tear down and halt, and the blocked
`SHUTDOWN` then completes with `OK`: the block has stopped, every owned pin is low, nothing is lit, frames and settings keep
their values. -/
def Obligations.ShutdownEndsDark : Prop :=
  ∀ (s : State) (rest : List Agent),
    Inv s → s.seqPc = .top → s.stopFlag = true → s.agenda = .seq :: .seq :: .cmd :: rest →
      ∃ t u v, step s = .next t ∧ step t = .next u ∧ step u = .next v ∧
        v = { s with agenda := rest, host := .idle, rsp := 0#32, run := .stopped, seqPc := .halt,
                     gpio := s.gpio &&& ~~~0x09C20F90#32, trace := s.trace ++ [.gpioClr 0x09C20F90#32] } ∧
        v.gpio &&& allMask = 0#32 ∧ v.quiescent

/-- R222, `TOP`: the stop flag leads to `TEARDOWN`; else a pending frame becomes active, the frame active before is handed back, and
the scan starts at half-row 0. No register write is made. -/
def Obligations.TopChecksStopThenPicksUp : Prop :=
  ∀ s : State,
    (s.stopFlag = true → exec .top s = .next { s with seqPc := .teardown }) ∧
      (s.stopFlag = false → s.pending = none → exec .top s = .next { s with seqD := 0#3, seqPc := .rowClr }) ∧
      ∀ g, s.stopFlag = false → s.pending = some g →
        exec .top s = .next { s with swapRet := some s.active, active := g, pending := none, seqD := 0#3, seqPc := .rowClr }

/-- R226, `TEARDOWN`: one clear of every pin the block owns, then stopped and halted. `HALT` answers the state itself: R164 gives it
no step, and that its turn then changes nothing is the model's choice (log entry 12, DEDUCED). -/
def Obligations.TeardownClearsEveryPinAndHaltStays : Prop :=
  ∀ s : State,
    exec .teardown s = .next { s with gpio := s.gpio &&& ~~~0x09C20F90#32, trace := s.trace ++ [.gpioClr 0x09C20F90#32],
                                      run := .stopped, seqPc := .halt } ∧
      exec .halt s = .next s

/-! ## Luminance -/

/-- R121, R122: the table is the floor of the exact value of the curve. -/
def Obligations.TableIsTheFloorOfTheCurve : Prop :=
  ∀ n b c : Nat, 8 ≤ n → n ≤ 11 → 1 ≤ b → b ≤ 100 → c ≤ 255 → ⌊cieReal n b c⌋ = (lutCie n b c : ℤ)

/-- R123: the table is non-decreasing in the input value for fixed brightness. -/
def Obligations.TableIsMonotonic : Prop :=
  ∀ n b c : Nat, 8 ≤ n → n ≤ 11 → 1 ≤ b → b ≤ 100 → c < 255 → lutCie n b c ≤ lutCie n b (c + 1)

/-- R124: the table's values fit `N` bits; the maximum is reached only at brightness 100 and value 255; value 0 gives 0. -/
def Obligations.TableFitsTheDepth : Prop :=
  ∀ n b c : Nat, 8 ≤ n → n ≤ 11 → 1 ≤ b → b ≤ 100 → c ≤ 255 →
    lutCie n b c ≤ 2 ^ n - 1 ∧ (lutCie n b c = 2 ^ n - 1 ↔ b = 100 ∧ c = 255) ∧ lutCie n b 0 = 0

/-- R125: the linear mode truncates `c * b / 100` and shifts it left by `N - 8`; it fits `N` bits with its low `N - 8` bits zero, is
non-decreasing, and its maximum is below `2^N - 1` for `N > 8`. -/
def Obligations.LinearModeFitsTheDepth : Prop :=
  ∀ n b c : Nat, 8 ≤ n → n ≤ 11 → 1 ≤ b → b ≤ 100 → c ≤ 255 →
    linMap n b c = c * b / 100 * 2 ^ (n - 8) ∧ linMap n b c ≤ 255 * 2 ^ (n - 8) ∧ linMap n b c < 2 ^ n ∧
      2 ^ (n - 8) ∣ linMap n b c ∧ (∀ c' ≤ c, linMap n b c' ≤ linMap n b c) ∧ linMap n 100 255 = 255 * 2 ^ (n - 8) ∧
      (8 < n → linMap n 100 255 < 2 ^ n - 1)

/-! ## The scan sequencer -/

/-- R165, R166, R167: after `ROW_CLR` and `ROW_SET` the row-address lines show the half-row; between the two they show the bitwise and
of the old and the new address; the other pins keep their levels; the first active plane and column 0 are selected. -/
def Obligations.RowAddressIsSetInTwoWrites : Prop :=
  ∀ s : State, s.cfg.legal = true →
    ∃ t u, exec .rowClr s = .next t ∧ exec .rowSet t = .next u ∧
      t = { s with gpio := t.gpio, trace := s.trace ++ [.gpioClr (~~~(s.seqD.setWidth 32 <<< 22) &&& 0x01C00000#32)],
                   seqPc := .rowSet } ∧
      u = { t with gpio := u.gpio, trace := t.trace ++ [.gpioSet (s.seqD.setWidth 32 <<< 22)], seqP := u.seqP,
                   seqX := 0#16, seqPc := .colClr } ∧
      t.gpio.extractLsb' 22 3 = s.gpio.extractLsb' 22 3 &&& s.seqD ∧ u.gpio.extractLsb' 22 3 = s.seqD ∧
      t.gpio &&& ~~~rowMask = s.gpio &&& ~~~rowMask ∧ u.gpio &&& ~~~rowMask = s.gpio &&& ~~~rowMask ∧
      u.seqP.toNat = s.cfg.n - (s.settings s.active).pwmBits.toNat

/-- R168, R171, R173, R174: the phases that make one write with a fixed mask, each with its next phase. -/
def Obligations.FixedMaskPhases : Prop :=
  ∀ s : State,
    exec .colClr s = .next { s with gpio := s.gpio &&& ~~~0x08020F80#32, trace := s.trace ++ [.gpioClr 0x08020F80#32],
                                    seqPc := .colData } ∧
      exec .planeClr s = .next { s with gpio := s.gpio &&& ~~~0x08020F80#32, trace := s.trace ++ [.gpioClr 0x08020F80#32],
                                        seqPc := .planeWait } ∧
      exec .strobeSet s = .next { s with gpio := s.gpio ||| 0x00000010#32, trace := s.trace ++ [.gpioSet 0x00000010#32],
                                         seqPc := .strobeClr } ∧
      exec .strobeClr s = .next { s with gpio := s.gpio &&& ~~~0x00000010#32, trace := s.trace ++ [.gpioClr 0x00000010#32],
                                         seqPc := .pulse }

/-- R169, `COL_DATA`: in a state of the invariant the stored word of the active frame's cell is driven onto the colour lines as it
stands, for it holds colour bits only. -/
def Obligations.ColDataDrivesTheStoredWord : Prop :=
  ∀ s : State, Inv s → ∃ w,
    w = s.mem.read (s.active.toNat * s.cfg.frameWords + (s.seqD.toNat * s.cfg.n + s.seqP.toNat) * s.cfg.columns + s.seqX.toNat) ∧
      w &&& ~~~colorMask = 0#32 ∧
      exec .colData s = .next { s with gpio := s.gpio ||| w, trace := s.trace ++ [.gpioSet w], seqPc := .colClk }

/-- R170, `COL_CLK`: the clock goes high; after the last column the plane ends, else the next column follows. -/
def Obligations.ColClkStepsTheColumn : Prop :=
  ∀ s : State, s.cfg.legal = true → s.seqX.toNat < s.cfg.columns →
    ∃ t, exec .colClk s = .next t ∧
      t = { s with gpio := s.gpio ||| 0x00020000#32, trace := s.trace ++ [.gpioSet 0x00020000#32], seqX := t.seqX,
                   seqPc := t.seqPc } ∧
      (s.seqX.toNat = s.cfg.columns - 1 → t.seqX = s.seqX ∧ t.seqPc = .planeClr) ∧
      (s.seqX.toNat ≠ s.cfg.columns - 1 → t.seqX.toNat = s.seqX.toNat + 1 ∧ t.seqPc = .colClr)

/-- R172, R176, R198: the two waits. Once `STA.EMPT` is 1 the timer is made quiescent and the sequencer goes on, after the last half-row
to `TOP`. While it is 0 the spec gives no step; that the phase then answers the state itself is the model's choice (log entry 12,
DEDUCED). -/
def Obligations.WaitsEndWhenTheFifoIsEmpty : Prop :=
  ∀ s : State, s.cfg.legal = true → s.seqD.toNat < s.cfg.half →
    (s.ptFifo ≠ [] → exec .planeWait s = .next s ∧ exec .rowWait s = .next s) ∧
      (s.ptFifo = [] →
        (∃ t, exec .planeWait s = .next t ∧
          t = { s with ptEn := false, ptFifo := [], ptHold := none, ptCur := none, oe := false,
                       trace := s.trace ++ [.ptWrite (.ctl .ctlQuiet)], seqPc := .strobeSet }) ∧
        ∃ t, exec .rowWait s = .next t ∧
          t = { s with ptEn := false, ptFifo := [], ptHold := none, ptCur := none, oe := false,
                       trace := s.trace ++ [.ptWrite (.ctl .ctlQuiet)], seqD := t.seqD, seqPc := t.seqPc } ∧
          (s.seqD.toNat = s.cfg.half - 1 → t.seqD = s.seqD ∧ t.seqPc = .top) ∧
          (s.seqD.toNat ≠ s.cfg.half - 1 → t.seqD.toNat = s.seqD.toNat + 1 ∧ t.seqPc = .rowClr))

/-- R175, R192, R193: `PULSE` from an empty FIFO writes the range, one entry or `SPLIT_FACTOR` equal ones, two zero sentinels and
`CTL_RUN`, in that order, and selects the next plane or the end of the half-row. The recorded hint is a free value (log entry 11). -/
def Obligations.PulseProgramsTheTimer : Prop :=
  ∀ s : State, s.cfg.legal = true → s.ptFifo = [] → s.seqP.toNat < s.cfg.n →
    ∃ t, exec .pulse s = .next t ∧
      t = { s with ptRng := t.ptRng, ptFifo := t.ptFifo, ptEn := true, ptStart := s.t1mhz, ptHint := t.ptHint,
                   freeCount := t.freeCount, trace := t.trace, seqP := t.seqP, seqX := t.seqX, seqPc := t.seqPc } ∧
      (s.cfg.baseTicks * 2 ^ s.seqP.toNat ≤ s.cfg.widthLimit →
        t.ptRng.toNat = s.cfg.baseTicks * 2 ^ s.seqP.toNat ∧ t.ptFifo = [t.ptRng, 0#32, 0#32]) ∧
      (s.cfg.widthLimit < s.cfg.baseTicks * 2 ^ s.seqP.toNat →
        t.ptRng.toNat * 8 = s.cfg.baseTicks * 2 ^ s.seqP.toNat ∧
          t.ptFifo = List.replicate 8 t.ptRng ++ [0#32, 0#32]) ∧
      t.trace = s.trace ++ .ptWrite (.rng t.ptRng) :: (t.ptFifo.map fun e => .ptWrite (.fifo e)) ++
        [.ptWrite (.ctl .ctlRun)] ∧
      (s.seqP.toNat = s.cfg.n - 1 → t.seqP = s.seqP ∧ t.seqX = s.seqX ∧ t.seqPc = .rowWait) ∧
      (s.seqP.toNat ≠ s.cfg.n - 1 → t.seqP.toNat = s.seqP.toNat + 1 ∧ t.seqX = 0#16 ∧ t.seqPc = .colClr)

/-- R162 step 2a and 2b: from column 0 of a plane, `3 * COLUMNS + 1` turns of the sequencer clock out the plane's words in column
order, three writes each, and clear the lines; nothing but pins, trace, column and phase changes. -/
def Obligations.PlaneIsClockedOutInOrder : Prop :=
  ∀ s : State, Inv s → s.seqPc = .colClr → s.seqX = 0#16 →
    ∃ t, State.seqTurns (3 * s.cfg.columns + 1) s = .next t ∧
      t = { s with gpio := t.gpio, trace := t.trace, seqX := t.seqX, seqPc := .planeWait } ∧
      t.seqX.toNat = s.cfg.columns - 1 ∧
      t.trace = s.trace ++
        columnEvents (fun x => s.mem.read (cellAddr s.cfg s.active.toNat s.seqD.toNat s.seqP.toNat x)) s.cfg.columns ++
        [.gpioClr colorClkMask]

/-- R183: after the columns of one plane the panel's shift register holds the stored words, column `x` at position
`COLUMNS - 1 - x`, and its latch has not changed. -/
def Obligations.ShiftRegisterHoldsThePlane : Prop :=
  ∀ (s t : State) (pn : Panel), Inv s → s.seqPc = .colClr → s.seqX = 0#16 → pn.sr.length = s.cfg.columns →
    State.seqTurns (3 * s.cfg.columns + 1) s = .next t →
      (pn.watch s t).latch = pn.latch ∧ (pn.watch s t).sr.length = s.cfg.columns ∧
        ∀ x, x < s.cfg.columns →
          (pn.watch s t).sr[s.cfg.columns - 1 - x]? =
            some (s.mem.read (cellAddr s.cfg s.active.toNat s.seqD.toNat s.seqP.toNat x))

/-- R162, R164, R180, R228: from `TOP`, with no stop requested, one full refresh of the frame then active comes back to `TOP` with
exactly the events of the procedure, within as many turns as there are events, plus one, plus `ontime(p) + 1` ticks for each
window. The schedule is that of spec/95_test_vectors.md V62: the sequencer steps whenever it is enabled, the timer ticks while
it waits. -/
def Obligations.RefreshRunsTheProcedure : Prop :=
  ∀ s : State, Inv s → s.seqPc = .top → s.stopFlag = false →
    ∃ k t, State.refreshTurns k s = .next t ∧ t.seqPc = .top ∧
      t.trace = s.trace ++ s.pickup.refreshEvents ∧
      t = { s.pickup with gpio := t.gpio, trace := t.trace, seqD := t.seqD, seqP := t.seqP, seqX := t.seqX,
                          ptRng := t.ptRng, ptStart := t.ptStart, ptHint := t.ptHint, freeCount := t.freeCount } ∧
      k ≤ 1 + s.pickup.refreshEvents.length +
        s.cfg.half * ((activePlanes s.cfg.n (s.pickup.settings s.pickup.active).pwmBits).map
          (fun p => s.cfg.baseTicks * 2 ^ p + 1)).sum

/-- R180, the number of events of one full refresh at depth `k`. -/
def Obligations.RefreshEventCount : Prop :=
  ∀ s : State, s.cfg.legal = true →
    s.refreshEvents.length = s.cfg.half * (3 + ((activePlanes s.cfg.n (s.settings s.active).pwmBits).map
      (fun p => 3 * s.cfg.columns + 8 + if s.cfg.widthLimit < s.cfg.baseTicks * 2 ^ p then 8 else 1)).sum)

/-- R184, the PWM property, under the schedule of V62 and with the observer of R183: in one full refresh that starts with the strobe
low (at reset its level is open, R271; every half-row leaves it low), the sub-pixel of a colour line, a column and a physical row,
row `d` for the lines R1, G1, B1 and row `d + HALF` for R2, G2, B2, is lit for the sum, over the active planes, of
`BASE_TICKS * 2^p` where the stored bit is 1. -/
def Obligations.LitTimeIsTheWeightedSum : Prop :=
  ∀ (s : State) (pn : Panel), Inv s → s.seqPc = .top → s.stopFlag = false → s.gpio &&& strobeMask = 0#32 →
    pn.sr.length = s.cfg.columns →
    ∃ k t, State.refreshTurns k s = .next t ∧ t.seqPc = .top ∧ t.trace = s.trace ++ s.pickup.refreshEvents ∧
      ∀ d x pin y, d < s.cfg.half → x < s.cfg.columns →
        ((pin ∈ [s.cfg.pinR1, s.cfg.pinG1, s.cfg.pinB1] ∧ y = d) ∨
          (pin ∈ [s.cfg.pinR2, s.cfg.pinG2, s.cfg.pinB2] ∧ y = d + s.cfg.half)) →
        State.litTicks pin (s.cfg.columns - 1 - x) y k s pn =
          ((activePlanes s.cfg.n (s.pickup.settings s.pickup.active).pwmBits).map fun p =>
            if (s.mem.read (cellAddr s.cfg s.pickup.active.toNat d p x)).getLsbD pin then s.cfg.baseTicks * 2 ^ p else 0).sum

/-! ## The pulse timer -/

/-- R200, U7: a disabled timer's tick changes nothing; an enabled timer with range 0 is a fault; an enabled one with nothing left to
play keeps the level of its output. -/
def Obligations.TickCornerCases : Prop :=
  ∀ s : State,
    (s.ptEn = false → s.tick = .ok s) ∧
      (s.ptEn = true → s.ptRng = 0#32 → s.tick = .error .tickWithRangeZero) ∧
      (s.ptEn = true → s.ptRng ≠ 0#32 → s.ptCur = none → s.ptHold = none → s.ptFifo = [] → s.tick = .ok s)

/-- R200: an entry `e` with range `R`, `e <= R`, `1 <= R`, loaded from an empty timer, makes the output active for the first `e` ticks
and inactive for the rest of its period. -/
def Obligations.EntryPlaysItsPeriod : Prop :=
  ∀ (s : State) (e : Word) (k : Nat),
    s.ptEn = true → s.ptCur = none → s.ptHold = none → s.ptFifo = [e] → e ≤ s.ptRng → 1 ≤ k → k ≤ s.ptRng.toNat →
      ∃ t, State.ticks k s = .ok t ∧ (t.oe = true ↔ k ≤ e.toNat) ∧ t.ptFifo = []

/-- R202 (a), (b) and R203: after `PULSE` for plane `p` the output is active for exactly the first `BASE_TICKS * 2^p` ticks and
inactive for every later one, and `STA.EMPT` rises at the first dark tick. -/
def Obligations.ExposureLastsItsTicks : Prop :=
  ∀ (s t : State) (k : Nat), Inv s → s.seqPc = .pulse → exec .pulse s = .next t → 1 ≤ k →
    ∃ u, State.ticks k t = .ok u ∧ (u.oe = true ↔ k ≤ s.cfg.baseTicks * 2 ^ s.seqP.toNat) ∧
      (u.staEmpt = true ↔ s.cfg.baseTicks * 2 ^ s.seqP.toNat < k)

/-- R203: under a legal configuration the on-time is the duration, and doubles from plane to plane. -/
def Obligations.OnTimeIsTheDuration : Prop :=
  ∀ (c : Config) (p : Nat), c.legal = true → p < c.n →
    onTime c p = c.baseTicks * 2 ^ p ∧ (p + 1 < c.n → onTime c (p + 1) = 2 * onTime c p)

/-- R202 (b), C9: `STA.EMPT = 1` implies that the exposure window is over. -/
def Obligations.EmptyFifoMeansDark : Prop :=
  ∀ s : State, Inv s → s.staEmpt = true → s.oe = false

/-! ## The whole machine -/

/-- R271, R274: what reset leaves, for every legal configuration, both values of `map_ok` and every value of what the spec leaves
unspecified (which reset takes as it is given); and it is a state of the invariant. -/
def Obligations.ResetMeetsTheInvariant : Prop :=
  ∀ (c : Config) (i : ResetInputs) (s : State), c.legal = true → s = State.resetFrom c i →
    Inv s ∧ s.cfg = c ∧ (∀ a, inFrame c 0#4 a → s.mem.read a = 0#32) ∧
      (s.settings 0#4).brightness = 100#7 ∧ (s.settings 0#4).pwmBits.toNat = c.n ∧ (s.settings 0#4).lum = true ∧
      s.numCreated = 1#4 ∧ s.active = 0#4 ∧ s.pending = none ∧ s.swapRet = none ∧ s.stopFlag = false ∧ s.host = .idle ∧
      s.seqD = 0#3 ∧ s.seqP = 0#4 ∧ s.seqX = 0#16 ∧ s.ptRng = 0#32 ∧ s.quiescent ∧ s.staEmpt = true ∧ s.trace = [] ∧
      s.rsp = i.rsp ∧ s.gpio = i.gpio ∧ s.ptStart = i.ptStart ∧ s.ptHint = i.ptHint ∧ s.t1mhz = i.t1mhz ∧
      (i.mapOk = true → s.run = .scanning ∧ s.seqPc = .top) ∧ (i.mapOk = false → s.run = .failed ∧ s.seqPc = .halt)

/-- The invariant (R50, R177, R178, R182, R202, R275 and the canonical form of frame memory) is kept by every step of every agent. -/
def Obligations.EveryStepKeepsTheInvariant : Prop :=
  ∀ s t : State, Inv s → step s = .next t → Inv t

/-- From a state of the invariant every step answers a next state: no access outside frame memory (R63), no push to a full FIFO
(R197), no tick with range 0 (R200), no instruction without a meaning. -/
def Obligations.NoStepStopsFromTheInvariant : Prop :=
  ∀ s : State, Inv s → ∃ t, step s = .next t

/-- R182: in the phases in which the latch or the row address changes the timer is quiescent; so a step that changes the row address
or raises the strobe is taken with the timer quiescent, before it and after it. -/
def Obligations.LatchAndRowChangeOnlyInTheDark : Prop :=
  ∀ s t : State, Inv s → step s = .next t →
    (s.seqPc ∈ [.rowClr, .rowSet, .strobeSet, .strobeClr, .pulse, .top, .teardown] → s.quiescent) ∧
      (t.litRow ≠ s.litRow ∨ (s.gpio &&& strobeMask = 0#32 ∧ t.gpio &&& strobeMask ≠ 0#32) → s.quiescent ∧ t.quiescent)

/-- R178: no step changes a pin outside `ALL_MASK`, and every mask a step writes lies within `ALL_MASK` and has no `OE_BIT`. -/
def Obligations.OtherPinsNeverChange : Prop :=
  ∀ s t : State, step s = .next t →
    t.gpio &&& ~~~allMask = s.gpio &&& ~~~allMask ∧
      ∃ es, t.trace = s.trace ++ es ∧ ∀ e ∈ es, e.mask &&& ~~~allMask = 0#32 ∧ e.mask &&& oeBit = 0#32

/-- R223, R73: the active frame changes only in a `TOP` step that picks up the pending frame and hands the old one back, and no step
changes a word or a setting of the frame that is active. -/
def Obligations.RefreshIsTearFree : Prop :=
  ∀ s t : State, Inv s → step s = .next t →
    (t.active ≠ s.active → s.seqPc = .top ∧ s.pending = some t.active ∧ t.swapRet = some s.active ∧ t.pending = none) ∧
      (∀ a, inFrame s.cfg s.active a → t.mem.read a = s.mem.read a) ∧ t.settings s.active = s.settings s.active

/-- R68, R254: a command never touches the sequencer, the timer, the pins, the trace, the active frame or the acknowledgment. -/
def Obligations.CommandsNeverTouchTheScan : Prop :=
  ∀ (i : Instr) (s t : State), i.format = .cmd → exec i s = .next t →
    t = { s with mem := t.mem, frames := t.frames, numCreated := t.numCreated, pending := t.pending, stopFlag := t.stopFlag,
                 host := t.host, rsp := t.rsp }

/-- R68, C7: a phase of the sequencer never touches frame memory, the settings, the frame set, the stop flag or the command port. -/
def Obligations.PhasesNeverTouchTheFrames : Prop :=
  ∀ (i : Instr) (s t : State), i.format = .seqPhase → exec i s = .next t →
    t = { s with active := t.active, pending := t.pending, swapRet := t.swapRet, run := t.run, seqPc := t.seqPc,
                 seqD := t.seqD, seqP := t.seqP, seqX := t.seqX, ptRng := t.ptRng, ptFifo := t.ptFifo, ptHold := t.ptHold,
                 ptCur := t.ptCur, ptEn := t.ptEn, oe := t.oe, ptStart := t.ptStart, ptHint := t.ptHint, gpio := t.gpio,
                 trace := t.trace, freeCount := t.freeCount }

/-- R30, R248, R250: `STOPPED` and `FAILED` are terminal, and in them no register write is made, nothing is lit and no frame changes. -/
def Obligations.TerminalStatesStay : Prop :=
  ∀ s t : State, Inv s → s.run ≠ .scanning → step s = .next t →
    t.run = s.run ∧ t.seqPc = .halt ∧ t.trace = s.trace ∧ t.gpio = s.gpio ∧ t.mem = s.mem ∧ t.frames = s.frames ∧ t.quiescent

/-- R6, R46: the configuration is no state: no step writes it (the model carries it as a field, the model's choice, log entry 3), and a
step under an illegal one is refused (R7). -/
def Obligations.ConfigurationIsConstant : Prop :=
  (∀ s t : State, step s = .next t → t.cfg = s.cfg) ∧
    ∀ s : State, s.cfg.legal = false → step s = .refused .illegalConfig
end

