-- ==== Sys2Proof/Laws/Memory.lean ====
section
/-! SUPPORT. Frame memory: what a read gives after a write, that every operation keeps the canonical form, and that two memories in
canonical form with the same reads are equal. -/

namespace Sys2Proof.Machine

/-- Every listed address lies above `a`. -/
abbrev Memory.above (m : Memory) (a : Nat) : Prop := ∀ c ∈ m, a < c.1

@[simp] theorem Memory.wf_nil : Memory.wf [] := by simp [Memory.wf]

theorem Memory.wf_cons {k : Nat} {w : Word} {m : Memory} :
    Memory.wf ((k, w) :: m) ↔ w ≠ Memory.unlisted ∧ Memory.above m k ∧ Memory.wf m := by
  simp only [Memory.wf, Memory.above, List.pairwise_cons, List.mem_cons, forall_eq_or_imp]
  tauto

/-- An address below every listed one reads as unlisted. -/
theorem Memory.read_of_above {m : Memory} {a : Nat} (h : Memory.above m a) : m.read a = Memory.unlisted := by
  induction m with
  | nil => rfl
  | cons c m ih =>
    have h1 : a < c.1 := h c (by simp)
    have h2 : ¬ c.1 = a := by omega
    simp only [Memory.read, h2, if_false]
    exact ih fun d hd => h d (by simp [hd])

theorem Memory.above_mono {m : Memory} {a b : Nat} (h : Memory.above m b) (hab : a ≤ b) : Memory.above m a :=
  fun c hc => lt_of_le_of_lt hab (h c hc)

/-- The entry of one address, followed by entries above it, reads as that word there and as the rest elsewhere. -/
theorem Memory.read_cell_append {a : Nat} {v : Word} {m : Memory} (h : Memory.above m a) (b : Nat) :
    (Memory.cell a v ++ m).read b = if b = a then v else m.read b := by
  unfold Memory.cell
  split
  · rename_i hv
    split
    · rename_i hb; subst hb; simpa [hv] using Memory.read_of_above h
    · rfl
  · simp only [List.cons_append, List.nil_append, Memory.read, eq_comm]

theorem Memory.wf_cell_append {a : Nat} {v : Word} {m : Memory} (h : Memory.above m a) (hm : m.wf) :
    (Memory.cell a v ++ m).wf := by
  unfold Memory.cell
  split
  · exact hm
  · rename_i hv
    exact Memory.wf_cons.mpr ⟨hv, h, hm⟩

/-- A write adds no address but the one written. -/
theorem Memory.mem_write {m : Memory} {a : Nat} {v : Word} {c : Nat × Word} (h : c ∈ m.write a v) : c = (a, v) ∨ c ∈ m := by
  induction m with
  | nil => simp only [Memory.write, Memory.cell] at h; split at h <;> simp_all
  | cons d m ih =>
    obtain ⟨k, w⟩ := d
    simp only [Memory.write, Memory.cell] at h
    split at h
    · split at h <;> simp_all
    · split at h
      · split at h
        · right; simp_all
        · simp only [List.cons_append, List.nil_append, List.mem_cons] at h
          rcases h with h | h
          · exact .inl h
          · right; simp [h]
      · rcases List.mem_cons.mp h with h | h
        · right; simp [h]
        · rcases ih h with h | h
          · exact .inl h
          · right; simp [h]

/-- A write keeps the canonical form. -/
theorem Memory.wf_write {m : Memory} (hm : m.wf) (a : Nat) (v : Word) : (m.write a v).wf := by
  induction m with
  | nil => simpa [Memory.write] using Memory.wf_cell_append (a := a) (v := v) (m := []) (by simp [Memory.above]) hm
  | cons c m ih =>
    obtain ⟨k, w⟩ := c
    obtain ⟨hw, hk, hm'⟩ := Memory.wf_cons.mp hm
    simp only [Memory.write]
    split
    · rename_i hak
      refine Memory.wf_cell_append (fun d hd => ?_) hm
      rcases List.mem_cons.mp hd with rfl | hd
      · exact hak
      · exact lt_trans hak (hk d hd)
    · split
      · rename_i h1 h2; subst h2; exact Memory.wf_cell_append hk hm'
      · rename_i h1 h2
        refine Memory.wf_cons.mpr ⟨hw, fun d hd => ?_, ih hm'⟩
        rcases Memory.mem_write hd with rfl | hd
        · show k < a; omega
        · exact hk d hd

/-- What a read gives after a write. -/
theorem Memory.read_write {m : Memory} (hm : m.wf) (a b : Nat) (v : Word) :
    (m.write a v).read b = if b = a then v else m.read b := by
  induction m with
  | nil => simpa [Memory.write] using Memory.read_cell_append (a := a) (v := v) (m := []) (by simp [Memory.above]) b
  | cons c m ih =>
    obtain ⟨k, w⟩ := c
    obtain ⟨hw, hk, hm'⟩ := Memory.wf_cons.mp hm
    simp only [Memory.write]
    split
    · rename_i hak
      refine Memory.read_cell_append (fun d hd => ?_) b
      rcases List.mem_cons.mp hd with rfl | hd
      · exact hak
      · exact lt_trans hak (hk d hd)
    · split
      · rename_i h1 h2; subst h2
        rw [Memory.read_cell_append hk]
        split
        · rfl
        · rename_i hb; simp [Memory.read, Ne.symm hb]
      · rename_i h1 h2
        simp only [Memory.read, ih hm']
        split
        · rename_i h; subst h; simp [Ne.symm h2]
        · rfl

/-- Two memories in canonical form with the same reads are equal. -/
theorem Memory.ext_of_read {m m' : Memory} (hm : m.wf) (hm' : m'.wf) (h : ∀ a, m.read a = m'.read a) : m = m' := by
  induction m generalizing m' with
  | nil =>
    cases m' with
    | nil => rfl
    | cons c m' =>
      have := h c.1
      simp only [Memory.read, if_true] at this
      exact absurd this.symm (Memory.wf_cons.mp hm').1
  | cons c m ih =>
    obtain ⟨k, w⟩ := c
    obtain ⟨hw, hk, hmw⟩ := Memory.wf_cons.mp hm
    cases m' with
    | nil =>
      have := h k
      simp only [Memory.read, if_true] at this
      exact absurd this hw
    | cons c' m' =>
      obtain ⟨k', w'⟩ := c'
      obtain ⟨hw', hk', hmw'⟩ := Memory.wf_cons.mp hm'
      have hkk : k = k' := by
        rcases lt_trichotomy k k' with hlt | heq | hlt
        · have := h k
          simp only [Memory.read, if_true, show ¬ k' = k by omega, if_false] at this
          rw [Memory.read_of_above (Memory.above_mono hk' (by omega))] at this
          exact absurd this hw
        · exact heq
        · have := h k'
          simp only [Memory.read, if_true, show ¬ k = k' by omega, if_false] at this
          rw [Memory.read_of_above (Memory.above_mono hk (by omega))] at this
          exact absurd this.symm hw'
      subst hkk
      have hww : w = w' := by simpa [Memory.read] using h k
      subst hww
      congr 1
      refine ih hmw hmw' fun a => ?_
      by_cases ha : a = k
      · subst ha; rw [Memory.read_of_above hk, Memory.read_of_above hk']
      · simpa [Memory.read, Ne.symm ha] using h a

/-- A read-modify-write keeps the canonical form. -/
theorem Memory.wf_patch {m : Memory} (hm : m.wf) (c : CellPatch) : (m.patch c).wf := Memory.wf_write hm _ _

/-- What a read gives after one read-modify-write. -/
theorem Memory.read_patch {m : Memory} (hm : m.wf) (c : CellPatch) (a : Nat) :
    (m.patch c).read a = if a = c.addr then (m.read a &&& ~~~c.mask) ||| c.bits else m.read a := by
  rw [Memory.patch, Memory.read_write hm]
  split
  · rename_i h; rw [h]
  · rfl

@[simp] theorem Memory.patchAll_nil (m : Memory) : m.patchAll [] = m := rfl

@[simp] theorem Memory.patchAll_cons (m : Memory) (c : CellPatch) (cs : List CellPatch) :
    m.patchAll (c :: cs) = (m.patch c).patchAll cs := rfl

/-- Read-modify-writes keep the canonical form. -/
theorem Memory.wf_patchAll {m : Memory} (hm : m.wf) (cs : List CellPatch) : (m.patchAll cs).wf := by
  induction cs generalizing m with
  | nil => exact hm
  | cons c cs ih => exact ih (Memory.wf_patch hm c)

/-- An address no patch names is kept. -/
theorem Memory.read_patchAll_of_not_mem {m : Memory} (hm : m.wf) (cs : List CellPatch) (a : Nat)
    (h : ∀ c ∈ cs, c.addr ≠ a) : (m.patchAll cs).read a = m.read a := by
  induction cs generalizing m with
  | nil => rfl
  | cons c cs ih =>
    rw [Memory.patchAll_cons, ih (Memory.wf_patch hm c) fun d hd => h d (by simp [hd]), Memory.read_patch hm,
      if_neg (Ne.symm (h c (by simp)))]

/-- An address exactly one patch names takes that patch (the addresses of the patches being distinct). -/
theorem Memory.read_patchAll_of_mem {m : Memory} (hm : m.wf) (cs : List CellPatch)
    (hd : cs.Pairwise (fun c d => c.addr ≠ d.addr)) (c : CellPatch) (hc : c ∈ cs) :
    (m.patchAll cs).read c.addr = (m.read c.addr &&& ~~~c.mask) ||| c.bits := by
  induction cs generalizing m with
  | nil => simp at hc
  | cons d cs ih =>
    obtain ⟨h1, h2⟩ := List.pairwise_cons.mp hd
    rw [Memory.patchAll_cons]
    rcases List.mem_cons.mp hc with rfl | hc
    · rw [Memory.read_patchAll_of_not_mem (Memory.wf_patch hm _) _ _ fun e he => Ne.symm (h1 e he), Memory.read_patch hm,
        if_pos rfl]
    · rw [ih (Memory.wf_patch hm _) h2 hc, Memory.read_patch hm, if_neg (Ne.symm (h1 c hc))]

/-- The addresses listed after read-modify-writes are those listed before and those of the patches. -/
theorem Memory.mem_patchAll {m : Memory} {cs : List CellPatch} {e : Nat × Word} (h : e ∈ m.patchAll cs) :
    e ∈ m ∨ ∃ c ∈ cs, e.1 = c.addr := by
  induction cs generalizing m with
  | nil => exact .inl h
  | cons c cs ih =>
    rcases ih (m := m.patch c) h with h | ⟨d, hd, he⟩
    · rcases Memory.mem_write h with rfl | h
      · exact .inr ⟨c, by simp, rfl⟩
      · exact .inl h
    · exact .inr ⟨d, by simp [hd], he⟩

/-- A listed entry is what its address reads as. -/
theorem Memory.read_of_mem {m : Memory} (hm : m.wf) {e : Nat × Word} (h : e ∈ m) : m.read e.1 = e.2 := by
  induction m with
  | nil => simp at h
  | cons c m ih =>
    obtain ⟨k, w⟩ := c
    obtain ⟨_, hk, hm'⟩ := Memory.wf_cons.mp hm
    rcases List.mem_cons.mp h with rfl | h
    · simp [Memory.read]
    · have := hk e h
      simp only [Memory.read, show ¬ k = e.1 by omega, if_false]
      exact ih hm' h

/-- What an address reads as is listed, unless it is the unlisted word. -/
theorem Memory.mem_of_read {m : Memory} {a : Nat} (h : m.read a ≠ Memory.unlisted) : (a, m.read a) ∈ m := by
  induction m with
  | nil => exact absurd rfl h
  | cons c m ih =>
    obtain ⟨k, w⟩ := c
    by_cases hk : k = a
    · simp [Memory.read, hk]
    · simp only [Memory.read, hk, if_false] at h ⊢
      exact List.mem_cons_of_mem _ (ih h)

end Sys2Proof.Machine
end

