-- ==== Sys2Proof/Laws/Operands.lean ====
section
/-! SUPPORT. The operand forms: word addresses of cells, active planes, the patches of the drawing commands, the masks, and what a legal
configuration gives. -/

namespace Sys2Proof.Machine

/-- What a legal configuration says, as propositions (R6 to R8). -/
theorem legal_iff (c : Config) :
    c.legal = true ↔
      (c.rows % 2 = 0 ∧ 2 ≤ c.rows ∧ c.rows ≤ 16) ∧ (1 ≤ c.columns ∧ c.columns ≤ 65535) ∧ c.parallel = 1 ∧
        (8 ≤ c.n ∧ c.n ≤ 11) ∧ (2 ≤ c.numFrames ∧ c.numFrames ≤ 15) ∧ (c.splitFactor = 8 ∧ 7 ≤ c.widthLimit) ∧
        c.splitFactor + 2 ≤ c.fifoDepth ∧
        (1 ≤ c.baseTicks ∧
          (∀ p < c.n, c.baseTicks * 2 ^ p ≤ c.widthLimit ∨ c.baseTicks * 2 ^ p % c.splitFactor = 0) ∧
          c.baseTicks * 2 ^ (c.n - 1) < 2 ^ 32) ∧
        c.colorPins.Perm [7, 8, 9, 10, 11, 27] := by
  simp only [Config.legal, Config.rowsOk, Config.columnsOk, Config.parallelOk, Config.depthOk, Config.framesOk, Config.splitOk,
    Config.fifoOk, Config.ticksOk, Config.pinsOk, Bool.and_eq_true, Bool.or_eq_true, beq_iff_eq, decide_eq_true_eq,
    List.all_eq_true, List.mem_range, List.isPerm_iff]
  tauto

/-- `HALF` is 1 to 8. -/
theorem legal_half {c : Config} (h : c.legal = true) : 1 ≤ c.half ∧ c.half ≤ 8 ∧ c.rows = 2 * c.half := by
  have := ((legal_iff c).mp h).1
  simp only [Config.half]
  omega

/-- With `PARALLEL = 1` the total rows are two halves. -/
theorem legal_totalRows {c : Config} (h : c.legal = true) : c.totalRows = 2 * c.half := by
  have h1 := ((legal_iff c).mp h).2.2.1
  have h2 := (legal_half h).2.2
  simp only [Config.totalRows, h1]
  omega

/-- A pin of a legal configuration is one of the six of R8. -/
theorem legal_pin_mem {c : Config} (h : c.legal = true) {i : Nat} (hi : i ∈ c.colorPins) : i ∈ [7, 8, 9, 10, 11, 27] :=
  ((legal_iff c).mp h).2.2.2.2.2.2.2.2.mem_iff.mp hi

/-- The six colour pins are distinct. -/
theorem legal_pins_nodup {c : Config} (h : c.legal = true) : c.colorPins.Nodup :=
  ((legal_iff c).mp h).2.2.2.2.2.2.2.2.nodup_iff.mpr (by decide)

/-- The active planes of a frame (R136). -/
@[simp] theorem mem_activePlanes {n : Nat} {k : BitVec 4} {p : Nat} : p ∈ activePlanes n k ↔ n - k.toNat ≤ p ∧ p < n := by
  simp [activePlanes, and_comm]

/-- The active planes are listed without repeats, ascending. -/
theorem activePlanes_sorted (n : Nat) (k : BitVec 4) : (activePlanes n k).Pairwise (· < ·) :=
  List.Pairwise.filter _ (List.pairwise_lt_range)

/-- Cell addresses of one frame, relative to its base. -/
theorem cellAddr_eq (c : Config) (f d p x : Nat) :
    cellAddr c f d p x = f * c.frameWords + cellAddr c 0 d p x := by
  simp [cellAddr, Nat.add_assoc]

/-- A cell lies within its frame (R61). -/
theorem cellAddr_lt {c : Config} {d p x : Nat} (hd : d < c.half) (hp : p < c.n) (hx : x < c.columns) :
    cellAddr c 0 d p x < c.frameWords := by
  have h1 : d * c.n + p < c.half * c.n := by nlinarith
  have h2 : (d * c.n + p) * c.columns + x < c.half * c.n * c.columns := by nlinarith
  simpa [cellAddr] using h2

/-- Distinct cells of a frame have distinct addresses (R61, D31). -/
theorem cellAddr_inj {c : Config} {f d p x d' p' x' : Nat} (hp : p < c.n) (hx : x < c.columns) (hp' : p' < c.n)
    (hx' : x' < c.columns) (h : cellAddr c f d p x = cellAddr c f d' p' x') : d = d' ∧ p = p' ∧ x = x' := by
  have h0 : (d * c.n + p) * c.columns + x = (d' * c.n + p') * c.columns + x' := by
    simp only [cellAddr] at h; omega
  have hc : 0 < c.columns := by omega
  have hn : 0 < c.n := by omega
  have key : ∀ a b u v m : Nat, 0 < m → u < m → v < m → a * m + u = b * m + v → a = b ∧ u = v := by
    intro a b u v m hm hu hv e
    have e1 : (a * m + u) % m = (b * m + v) % m := by rw [e]
    have e2 : (a * m + u) / m = (b * m + v) / m := by rw [e]
    rw [Nat.add_comm (a * m), Nat.add_comm (b * m), Nat.add_mul_mod_self_right, Nat.add_mul_mod_self_right, Nat.mod_eq_of_lt hu,
      Nat.mod_eq_of_lt hv] at e1
    rw [Nat.add_comm (a * m), Nat.add_comm (b * m), Nat.add_mul_div_right _ _ hm, Nat.add_mul_div_right _ _ hm,
      Nat.div_eq_of_lt hu, Nat.div_eq_of_lt hv] at e2
    omega
  obtain ⟨h1, h2⟩ := key _ _ _ _ _ hc hx hx' h0
  obtain ⟨h3, h4⟩ := key _ _ _ _ _ hn hp hp' h1
  exact ⟨h3, h4, h2⟩

/-- Every address within a frame is the address of a cell (R61). -/
theorem exists_cell {c : Config} {a : Nat} (ha : a < c.frameWords) :
    ∃ d p x, d < c.half ∧ p < c.n ∧ x < c.columns ∧ a = cellAddr c 0 d p x := by
  have hc : 0 < c.columns := by
    rcases Nat.eq_zero_or_pos c.columns with h | h
    · simp [Config.frameWords, h] at ha
    · exact h
  have hn : 0 < c.n := by
    rcases Nat.eq_zero_or_pos c.n with h | h
    · simp [Config.frameWords, h] at ha
    · exact h
  have h1 : a / c.columns < c.half * c.n := Nat.div_lt_of_lt_mul (by simpa [Config.frameWords, Nat.mul_comm] using ha)
  refine ⟨a / c.columns / c.n, a / c.columns % c.n, a % c.columns, Nat.div_lt_of_lt_mul (by rwa [Nat.mul_comm] at h1),
    Nat.mod_lt _ hn, Nat.mod_lt _ hc, ?_⟩
  simp only [cellAddr, Nat.zero_mul, Nat.zero_add]
  rw [Nat.div_add_mod', Nat.div_add_mod']

/-- The cells of a frame over some planes. -/
@[simp] theorem mem_frameCells {c : Config} {ps : List Nat} {d p x : Nat} :
    (d, p, x) ∈ frameCells c ps ↔ d < c.half ∧ p ∈ ps ∧ x < c.columns := by
  simp [frameCells]

/-- The cells are listed without repeats. -/
theorem frameCells_nodup {c : Config} {ps : List Nat} (h : ps.Nodup) : (frameCells c ps).Nodup := by
  refine List.nodup_flatMap.mpr ⟨fun d _ => List.nodup_flatMap.mpr ⟨fun p _ => ?_, ?_⟩, ?_⟩
  · exact List.Nodup.map (fun a b hab => by simpa using hab) List.nodup_range
  · refine List.Pairwise.imp (fun {p q} hpq => ?_) h
    intro t h1 h2
    simp only [List.mem_map] at h1 h2
    obtain ⟨_, _, rfl⟩ := h1
    obtain ⟨_, _, he⟩ := h2
    simp only [Prod.mk.injEq, true_and] at he
    exact hpq he.1.symm
  · refine List.Pairwise.imp (fun {d e} hde => ?_) List.nodup_range
    intro t h1 h2
    simp only [List.mem_flatMap, List.mem_map] at h1 h2
    obtain ⟨_, _, _, _, rfl⟩ := h1
    obtain ⟨_, _, _, _, he⟩ := h2
    simp only [Prod.mk.injEq] at he
    exact hde he.1.symm

/-- Patches made from distinct cells of one frame have distinct addresses. -/
theorem cellPatches_distinct {c : Config} {f : Nat} {cells : List (Nat × Nat × Nat)} (hd : cells.Nodup)
    (hr : ∀ t ∈ cells, t.2.1 < c.n ∧ t.2.2 < c.columns) (g : Nat × Nat × Nat → CellPatch)
    (hg : ∀ t, (g t).addr = cellAddr c f t.1 t.2.1 t.2.2) :
    (cells.map g).Pairwise (fun a b => a.addr ≠ b.addr) := by
  rw [List.pairwise_map]
  refine List.Pairwise.imp_of_mem (fun {a b} ha hb hab => ?_) hd
  rw [hg, hg]
  intro he
  obtain ⟨h1, h2, h3⟩ := cellAddr_inj (hr a ha).1 (hr a ha).2 (hr b hb).1 (hr b hb).2 he
  exact hab (by ext <;> simp [h1, h2, h3])

/-- The patches of `SETPIXEL` have distinct addresses. -/
theorem pixelPatches_distinct {c : Config} {st : FrameSettings} {f : FrameId} {x y : BitVec 16} {r g b : BitVec 8}
    (hx : x.toNat < c.columns) : (pixelPatches c st f x y r g b).Pairwise (fun a b => a.addr ≠ b.addr) := by
  rw [pixelPatches, List.pairwise_map]
  refine List.Pairwise.imp_of_mem (fun {p q} hp hq hpq => ?_) (activePlanes_sorted c.n st.pwmBits)
  intro he
  have := cellAddr_inj (mem_activePlanes.mp hp).2 hx (mem_activePlanes.mp hq).2 hx he
  omega

/-- The patches of `FILL` have distinct addresses. -/
theorem fillPatches_distinct {c : Config} {st : FrameSettings} {f : FrameId} {r g b : BitVec 8} :
    (fillPatches c st f r g b).Pairwise (fun a b => a.addr ≠ b.addr) :=
  cellPatches_distinct (f := f.toNat) (frameCells_nodup ((activePlanes_sorted _ _).imp fun h => Nat.ne_of_lt h))
    (fun ⟨d, p, x⟩ ht => by
      have := mem_frameCells.mp ht
      exact ⟨(mem_activePlanes.mp this.2.1).2, this.2.2⟩) _ fun _ => rfl

/-- The patches of `CLEAR` and `CREATEFRAME` have distinct addresses. -/
theorem zeroPatches_distinct {c : Config} {f : FrameId} :
    (zeroPatches c f).Pairwise (fun a b => a.addr ≠ b.addr) :=
  cellPatches_distinct (f := f.toNat) (frameCells_nodup List.nodup_range)
    (fun ⟨d, p, x⟩ ht => by
      have := mem_frameCells.mp ht
      exact ⟨List.mem_range.mp this.2.1, this.2.2⟩) _ fun _ => rfl

/-- The masks of R14 in hex. -/
theorem masks_hex :
    strobeMask = 0x00000010#32 ∧ clkMask = 0x00020000#32 ∧ oeBit = 0x00040000#32 ∧ rowMask = 0x01C00000#32 ∧
      colorMask = 0x08000F80#32 ∧ colorClkMask = 0x08020F80#32 ∧ allMask = 0x09C20F90#32 := by
  decide

/-- A colour pin's bit lies within `COLOR_MASK`. -/
theorem bit_pin_colorMask {i : Nat} (h : i ∈ [7, 8, 9, 10, 11, 27]) : bit i &&& ~~~colorMask = 0#32 := by
  revert i
  decide

/-- What `planeBit` sets lies within `COLOR_MASK`. -/
theorem planeBit_colorMask {i : Nat} (h : i ∈ [7, 8, 9, 10, 11, 27]) (v p : Nat) :
    planeBit v p i &&& ~~~colorMask = 0#32 := by
  unfold planeBit
  split
  · exact bit_pin_colorMask h
  · simp

end Sys2Proof.Machine
end

