-- ==== Sys2Proof/Laws/State.lean ====
section
/-! SUPPORT. One lemma per field per named update of the state, true by `rfl`, so that no proof unfolds an update. -/

namespace Sys2Proof.Machine

variable (s : State)

/-- A rejection is a response with value 0 (R241). -/
@[simp] theorem State.reject_eq (st : Status) : s.reject st = s.respond st 0#16 := rfl

@[simp] theorem State.gpioSet_cfg (m : Word) : (s.gpioSet m).cfg = s.cfg := rfl
@[simp] theorem State.gpioSet_mem (m : Word) : (s.gpioSet m).mem = s.mem := rfl
@[simp] theorem State.gpioSet_frames (m : Word) : (s.gpioSet m).frames = s.frames := rfl
@[simp] theorem State.gpioSet_numCreated (m : Word) : (s.gpioSet m).numCreated = s.numCreated := rfl
@[simp] theorem State.gpioSet_active (m : Word) : (s.gpioSet m).active = s.active := rfl
@[simp] theorem State.gpioSet_pending (m : Word) : (s.gpioSet m).pending = s.pending := rfl
@[simp] theorem State.gpioSet_swapRet (m : Word) : (s.gpioSet m).swapRet = s.swapRet := rfl
@[simp] theorem State.gpioSet_stopFlag (m : Word) : (s.gpioSet m).stopFlag = s.stopFlag := rfl
@[simp] theorem State.gpioSet_run (m : Word) : (s.gpioSet m).run = s.run := rfl
@[simp] theorem State.gpioSet_host (m : Word) : (s.gpioSet m).host = s.host := rfl
@[simp] theorem State.gpioSet_cmd (m : Word) : (s.gpioSet m).cmd = s.cmd := rfl
@[simp] theorem State.gpioSet_rsp (m : Word) : (s.gpioSet m).rsp = s.rsp := rfl
@[simp] theorem State.gpioSet_seqPc (m : Word) : (s.gpioSet m).seqPc = s.seqPc := rfl
@[simp] theorem State.gpioSet_seqD (m : Word) : (s.gpioSet m).seqD = s.seqD := rfl
@[simp] theorem State.gpioSet_seqP (m : Word) : (s.gpioSet m).seqP = s.seqP := rfl
@[simp] theorem State.gpioSet_seqX (m : Word) : (s.gpioSet m).seqX = s.seqX := rfl
@[simp] theorem State.gpioSet_ptRng (m : Word) : (s.gpioSet m).ptRng = s.ptRng := rfl
@[simp] theorem State.gpioSet_ptFifo (m : Word) : (s.gpioSet m).ptFifo = s.ptFifo := rfl
@[simp] theorem State.gpioSet_ptHold (m : Word) : (s.gpioSet m).ptHold = s.ptHold := rfl
@[simp] theorem State.gpioSet_ptCur (m : Word) : (s.gpioSet m).ptCur = s.ptCur := rfl
@[simp] theorem State.gpioSet_ptEn (m : Word) : (s.gpioSet m).ptEn = s.ptEn := rfl
@[simp] theorem State.gpioSet_oe (m : Word) : (s.gpioSet m).oe = s.oe := rfl
@[simp] theorem State.gpioSet_ptStart (m : Word) : (s.gpioSet m).ptStart = s.ptStart := rfl
@[simp] theorem State.gpioSet_ptHint (m : Word) : (s.gpioSet m).ptHint = s.ptHint := rfl
@[simp] theorem State.gpioSet_gpio (m : Word) : (s.gpioSet m).gpio = s.gpio ||| m := rfl
@[simp] theorem State.gpioSet_t1mhz (m : Word) : (s.gpioSet m).t1mhz = s.t1mhz := rfl
@[simp] theorem State.gpioSet_trace (m : Word) : (s.gpioSet m).trace = s.trace ++ [.gpioSet m] := rfl
@[simp] theorem State.gpioSet_hostWords (m : Word) : (s.gpioSet m).hostWords = s.hostWords := rfl
@[simp] theorem State.gpioSet_agenda (m : Word) : (s.gpioSet m).agenda = s.agenda := rfl
@[simp] theorem State.gpioSet_freeCount (m : Word) : (s.gpioSet m).freeCount = s.freeCount := rfl

@[simp] theorem State.gpioClr_cfg (m : Word) : (s.gpioClr m).cfg = s.cfg := rfl
@[simp] theorem State.gpioClr_mem (m : Word) : (s.gpioClr m).mem = s.mem := rfl
@[simp] theorem State.gpioClr_frames (m : Word) : (s.gpioClr m).frames = s.frames := rfl
@[simp] theorem State.gpioClr_numCreated (m : Word) : (s.gpioClr m).numCreated = s.numCreated := rfl
@[simp] theorem State.gpioClr_active (m : Word) : (s.gpioClr m).active = s.active := rfl
@[simp] theorem State.gpioClr_pending (m : Word) : (s.gpioClr m).pending = s.pending := rfl
@[simp] theorem State.gpioClr_swapRet (m : Word) : (s.gpioClr m).swapRet = s.swapRet := rfl
@[simp] theorem State.gpioClr_stopFlag (m : Word) : (s.gpioClr m).stopFlag = s.stopFlag := rfl
@[simp] theorem State.gpioClr_run (m : Word) : (s.gpioClr m).run = s.run := rfl
@[simp] theorem State.gpioClr_host (m : Word) : (s.gpioClr m).host = s.host := rfl
@[simp] theorem State.gpioClr_cmd (m : Word) : (s.gpioClr m).cmd = s.cmd := rfl
@[simp] theorem State.gpioClr_rsp (m : Word) : (s.gpioClr m).rsp = s.rsp := rfl
@[simp] theorem State.gpioClr_seqPc (m : Word) : (s.gpioClr m).seqPc = s.seqPc := rfl
@[simp] theorem State.gpioClr_seqD (m : Word) : (s.gpioClr m).seqD = s.seqD := rfl
@[simp] theorem State.gpioClr_seqP (m : Word) : (s.gpioClr m).seqP = s.seqP := rfl
@[simp] theorem State.gpioClr_seqX (m : Word) : (s.gpioClr m).seqX = s.seqX := rfl
@[simp] theorem State.gpioClr_ptRng (m : Word) : (s.gpioClr m).ptRng = s.ptRng := rfl
@[simp] theorem State.gpioClr_ptFifo (m : Word) : (s.gpioClr m).ptFifo = s.ptFifo := rfl
@[simp] theorem State.gpioClr_ptHold (m : Word) : (s.gpioClr m).ptHold = s.ptHold := rfl
@[simp] theorem State.gpioClr_ptCur (m : Word) : (s.gpioClr m).ptCur = s.ptCur := rfl
@[simp] theorem State.gpioClr_ptEn (m : Word) : (s.gpioClr m).ptEn = s.ptEn := rfl
@[simp] theorem State.gpioClr_oe (m : Word) : (s.gpioClr m).oe = s.oe := rfl
@[simp] theorem State.gpioClr_ptStart (m : Word) : (s.gpioClr m).ptStart = s.ptStart := rfl
@[simp] theorem State.gpioClr_ptHint (m : Word) : (s.gpioClr m).ptHint = s.ptHint := rfl
@[simp] theorem State.gpioClr_gpio (m : Word) : (s.gpioClr m).gpio = s.gpio &&& ~~~m := rfl
@[simp] theorem State.gpioClr_t1mhz (m : Word) : (s.gpioClr m).t1mhz = s.t1mhz := rfl
@[simp] theorem State.gpioClr_trace (m : Word) : (s.gpioClr m).trace = s.trace ++ [.gpioClr m] := rfl
@[simp] theorem State.gpioClr_hostWords (m : Word) : (s.gpioClr m).hostWords = s.hostWords := rfl
@[simp] theorem State.gpioClr_agenda (m : Word) : (s.gpioClr m).agenda = s.agenda := rfl
@[simp] theorem State.gpioClr_freeCount (m : Word) : (s.gpioClr m).freeCount = s.freeCount := rfl

@[simp] theorem State.respond_cfg (st : Status) (v : BitVec 16) : (s.respond st v).cfg = s.cfg := rfl
@[simp] theorem State.respond_mem (st : Status) (v : BitVec 16) : (s.respond st v).mem = s.mem := rfl
@[simp] theorem State.respond_frames (st : Status) (v : BitVec 16) : (s.respond st v).frames = s.frames := rfl
@[simp] theorem State.respond_numCreated (st : Status) (v : BitVec 16) : (s.respond st v).numCreated = s.numCreated := rfl
@[simp] theorem State.respond_active (st : Status) (v : BitVec 16) : (s.respond st v).active = s.active := rfl
@[simp] theorem State.respond_pending (st : Status) (v : BitVec 16) : (s.respond st v).pending = s.pending := rfl
@[simp] theorem State.respond_swapRet (st : Status) (v : BitVec 16) : (s.respond st v).swapRet = s.swapRet := rfl
@[simp] theorem State.respond_stopFlag (st : Status) (v : BitVec 16) : (s.respond st v).stopFlag = s.stopFlag := rfl
@[simp] theorem State.respond_run (st : Status) (v : BitVec 16) : (s.respond st v).run = s.run := rfl
@[simp] theorem State.respond_host (st : Status) (v : BitVec 16) : (s.respond st v).host = s.host := rfl
@[simp] theorem State.respond_cmd (st : Status) (v : BitVec 16) : (s.respond st v).cmd = s.cmd := rfl
@[simp] theorem State.respond_rsp (st : Status) (v : BitVec 16) : (s.respond st v).rsp = rspWord st v := rfl
@[simp] theorem State.respond_seqPc (st : Status) (v : BitVec 16) : (s.respond st v).seqPc = s.seqPc := rfl
@[simp] theorem State.respond_seqD (st : Status) (v : BitVec 16) : (s.respond st v).seqD = s.seqD := rfl
@[simp] theorem State.respond_seqP (st : Status) (v : BitVec 16) : (s.respond st v).seqP = s.seqP := rfl
@[simp] theorem State.respond_seqX (st : Status) (v : BitVec 16) : (s.respond st v).seqX = s.seqX := rfl
@[simp] theorem State.respond_ptRng (st : Status) (v : BitVec 16) : (s.respond st v).ptRng = s.ptRng := rfl
@[simp] theorem State.respond_ptFifo (st : Status) (v : BitVec 16) : (s.respond st v).ptFifo = s.ptFifo := rfl
@[simp] theorem State.respond_ptHold (st : Status) (v : BitVec 16) : (s.respond st v).ptHold = s.ptHold := rfl
@[simp] theorem State.respond_ptCur (st : Status) (v : BitVec 16) : (s.respond st v).ptCur = s.ptCur := rfl
@[simp] theorem State.respond_ptEn (st : Status) (v : BitVec 16) : (s.respond st v).ptEn = s.ptEn := rfl
@[simp] theorem State.respond_oe (st : Status) (v : BitVec 16) : (s.respond st v).oe = s.oe := rfl
@[simp] theorem State.respond_ptStart (st : Status) (v : BitVec 16) : (s.respond st v).ptStart = s.ptStart := rfl
@[simp] theorem State.respond_ptHint (st : Status) (v : BitVec 16) : (s.respond st v).ptHint = s.ptHint := rfl
@[simp] theorem State.respond_gpio (st : Status) (v : BitVec 16) : (s.respond st v).gpio = s.gpio := rfl
@[simp] theorem State.respond_t1mhz (st : Status) (v : BitVec 16) : (s.respond st v).t1mhz = s.t1mhz := rfl
@[simp] theorem State.respond_trace (st : Status) (v : BitVec 16) : (s.respond st v).trace = s.trace := rfl
@[simp] theorem State.respond_hostWords (st : Status) (v : BitVec 16) : (s.respond st v).hostWords = s.hostWords := rfl
@[simp] theorem State.respond_agenda (st : Status) (v : BitVec 16) : (s.respond st v).agenda = s.agenda := rfl
@[simp] theorem State.respond_freeCount (st : Status) (v : BitVec 16) : (s.respond st v).freeCount = s.freeCount := rfl

@[simp] theorem State.goto_cfg (p : Phase) : (s.goto p).cfg = s.cfg := rfl
@[simp] theorem State.goto_mem (p : Phase) : (s.goto p).mem = s.mem := rfl
@[simp] theorem State.goto_frames (p : Phase) : (s.goto p).frames = s.frames := rfl
@[simp] theorem State.goto_numCreated (p : Phase) : (s.goto p).numCreated = s.numCreated := rfl
@[simp] theorem State.goto_active (p : Phase) : (s.goto p).active = s.active := rfl
@[simp] theorem State.goto_pending (p : Phase) : (s.goto p).pending = s.pending := rfl
@[simp] theorem State.goto_swapRet (p : Phase) : (s.goto p).swapRet = s.swapRet := rfl
@[simp] theorem State.goto_stopFlag (p : Phase) : (s.goto p).stopFlag = s.stopFlag := rfl
@[simp] theorem State.goto_run (p : Phase) : (s.goto p).run = s.run := rfl
@[simp] theorem State.goto_host (p : Phase) : (s.goto p).host = s.host := rfl
@[simp] theorem State.goto_cmd (p : Phase) : (s.goto p).cmd = s.cmd := rfl
@[simp] theorem State.goto_rsp (p : Phase) : (s.goto p).rsp = s.rsp := rfl
@[simp] theorem State.goto_seqPc (p : Phase) : (s.goto p).seqPc = p := rfl
@[simp] theorem State.goto_seqD (p : Phase) : (s.goto p).seqD = s.seqD := rfl
@[simp] theorem State.goto_seqP (p : Phase) : (s.goto p).seqP = s.seqP := rfl
@[simp] theorem State.goto_seqX (p : Phase) : (s.goto p).seqX = s.seqX := rfl
@[simp] theorem State.goto_ptRng (p : Phase) : (s.goto p).ptRng = s.ptRng := rfl
@[simp] theorem State.goto_ptFifo (p : Phase) : (s.goto p).ptFifo = s.ptFifo := rfl
@[simp] theorem State.goto_ptHold (p : Phase) : (s.goto p).ptHold = s.ptHold := rfl
@[simp] theorem State.goto_ptCur (p : Phase) : (s.goto p).ptCur = s.ptCur := rfl
@[simp] theorem State.goto_ptEn (p : Phase) : (s.goto p).ptEn = s.ptEn := rfl
@[simp] theorem State.goto_oe (p : Phase) : (s.goto p).oe = s.oe := rfl
@[simp] theorem State.goto_ptStart (p : Phase) : (s.goto p).ptStart = s.ptStart := rfl
@[simp] theorem State.goto_ptHint (p : Phase) : (s.goto p).ptHint = s.ptHint := rfl
@[simp] theorem State.goto_gpio (p : Phase) : (s.goto p).gpio = s.gpio := rfl
@[simp] theorem State.goto_t1mhz (p : Phase) : (s.goto p).t1mhz = s.t1mhz := rfl
@[simp] theorem State.goto_trace (p : Phase) : (s.goto p).trace = s.trace := rfl
@[simp] theorem State.goto_hostWords (p : Phase) : (s.goto p).hostWords = s.hostWords := rfl
@[simp] theorem State.goto_agenda (p : Phase) : (s.goto p).agenda = s.agenda := rfl
@[simp] theorem State.goto_freeCount (p : Phase) : (s.goto p).freeCount = s.freeCount := rfl

@[simp] theorem State.setSettings_cfg (f : FrameId) (st : FrameSettings) : (s.setSettings f st).cfg = s.cfg := rfl
@[simp] theorem State.setSettings_mem (f : FrameId) (st : FrameSettings) : (s.setSettings f st).mem = s.mem := rfl
@[simp] theorem State.setSettings_frames (f : FrameId) (st : FrameSettings) : (s.setSettings f st).frames = s.frames.set f.toNat st f.isLt := rfl
@[simp] theorem State.setSettings_numCreated (f : FrameId) (st : FrameSettings) : (s.setSettings f st).numCreated = s.numCreated := rfl
@[simp] theorem State.setSettings_active (f : FrameId) (st : FrameSettings) : (s.setSettings f st).active = s.active := rfl
@[simp] theorem State.setSettings_pending (f : FrameId) (st : FrameSettings) : (s.setSettings f st).pending = s.pending := rfl
@[simp] theorem State.setSettings_swapRet (f : FrameId) (st : FrameSettings) : (s.setSettings f st).swapRet = s.swapRet := rfl
@[simp] theorem State.setSettings_stopFlag (f : FrameId) (st : FrameSettings) : (s.setSettings f st).stopFlag = s.stopFlag := rfl
@[simp] theorem State.setSettings_run (f : FrameId) (st : FrameSettings) : (s.setSettings f st).run = s.run := rfl
@[simp] theorem State.setSettings_host (f : FrameId) (st : FrameSettings) : (s.setSettings f st).host = s.host := rfl
@[simp] theorem State.setSettings_cmd (f : FrameId) (st : FrameSettings) : (s.setSettings f st).cmd = s.cmd := rfl
@[simp] theorem State.setSettings_rsp (f : FrameId) (st : FrameSettings) : (s.setSettings f st).rsp = s.rsp := rfl
@[simp] theorem State.setSettings_seqPc (f : FrameId) (st : FrameSettings) : (s.setSettings f st).seqPc = s.seqPc := rfl
@[simp] theorem State.setSettings_seqD (f : FrameId) (st : FrameSettings) : (s.setSettings f st).seqD = s.seqD := rfl
@[simp] theorem State.setSettings_seqP (f : FrameId) (st : FrameSettings) : (s.setSettings f st).seqP = s.seqP := rfl
@[simp] theorem State.setSettings_seqX (f : FrameId) (st : FrameSettings) : (s.setSettings f st).seqX = s.seqX := rfl
@[simp] theorem State.setSettings_ptRng (f : FrameId) (st : FrameSettings) : (s.setSettings f st).ptRng = s.ptRng := rfl
@[simp] theorem State.setSettings_ptFifo (f : FrameId) (st : FrameSettings) : (s.setSettings f st).ptFifo = s.ptFifo := rfl
@[simp] theorem State.setSettings_ptHold (f : FrameId) (st : FrameSettings) : (s.setSettings f st).ptHold = s.ptHold := rfl
@[simp] theorem State.setSettings_ptCur (f : FrameId) (st : FrameSettings) : (s.setSettings f st).ptCur = s.ptCur := rfl
@[simp] theorem State.setSettings_ptEn (f : FrameId) (st : FrameSettings) : (s.setSettings f st).ptEn = s.ptEn := rfl
@[simp] theorem State.setSettings_oe (f : FrameId) (st : FrameSettings) : (s.setSettings f st).oe = s.oe := rfl
@[simp] theorem State.setSettings_ptStart (f : FrameId) (st : FrameSettings) : (s.setSettings f st).ptStart = s.ptStart := rfl
@[simp] theorem State.setSettings_ptHint (f : FrameId) (st : FrameSettings) : (s.setSettings f st).ptHint = s.ptHint := rfl
@[simp] theorem State.setSettings_gpio (f : FrameId) (st : FrameSettings) : (s.setSettings f st).gpio = s.gpio := rfl
@[simp] theorem State.setSettings_t1mhz (f : FrameId) (st : FrameSettings) : (s.setSettings f st).t1mhz = s.t1mhz := rfl
@[simp] theorem State.setSettings_trace (f : FrameId) (st : FrameSettings) : (s.setSettings f st).trace = s.trace := rfl
@[simp] theorem State.setSettings_hostWords (f : FrameId) (st : FrameSettings) : (s.setSettings f st).hostWords = s.hostWords := rfl
@[simp] theorem State.setSettings_agenda (f : FrameId) (st : FrameSettings) : (s.setSettings f st).agenda = s.agenda := rfl
@[simp] theorem State.setSettings_freeCount (f : FrameId) (st : FrameSettings) : (s.setSettings f st).freeCount = s.freeCount := rfl

@[simp] theorem State.logPt_cfg (w : PtWrite) : (s.logPt w).cfg = s.cfg := rfl
@[simp] theorem State.logPt_mem (w : PtWrite) : (s.logPt w).mem = s.mem := rfl
@[simp] theorem State.logPt_frames (w : PtWrite) : (s.logPt w).frames = s.frames := rfl
@[simp] theorem State.logPt_numCreated (w : PtWrite) : (s.logPt w).numCreated = s.numCreated := rfl
@[simp] theorem State.logPt_active (w : PtWrite) : (s.logPt w).active = s.active := rfl
@[simp] theorem State.logPt_pending (w : PtWrite) : (s.logPt w).pending = s.pending := rfl
@[simp] theorem State.logPt_swapRet (w : PtWrite) : (s.logPt w).swapRet = s.swapRet := rfl
@[simp] theorem State.logPt_stopFlag (w : PtWrite) : (s.logPt w).stopFlag = s.stopFlag := rfl
@[simp] theorem State.logPt_run (w : PtWrite) : (s.logPt w).run = s.run := rfl
@[simp] theorem State.logPt_host (w : PtWrite) : (s.logPt w).host = s.host := rfl
@[simp] theorem State.logPt_cmd (w : PtWrite) : (s.logPt w).cmd = s.cmd := rfl
@[simp] theorem State.logPt_rsp (w : PtWrite) : (s.logPt w).rsp = s.rsp := rfl
@[simp] theorem State.logPt_seqPc (w : PtWrite) : (s.logPt w).seqPc = s.seqPc := rfl
@[simp] theorem State.logPt_seqD (w : PtWrite) : (s.logPt w).seqD = s.seqD := rfl
@[simp] theorem State.logPt_seqP (w : PtWrite) : (s.logPt w).seqP = s.seqP := rfl
@[simp] theorem State.logPt_seqX (w : PtWrite) : (s.logPt w).seqX = s.seqX := rfl
@[simp] theorem State.logPt_ptRng (w : PtWrite) : (s.logPt w).ptRng = s.ptRng := rfl
@[simp] theorem State.logPt_ptFifo (w : PtWrite) : (s.logPt w).ptFifo = s.ptFifo := rfl
@[simp] theorem State.logPt_ptHold (w : PtWrite) : (s.logPt w).ptHold = s.ptHold := rfl
@[simp] theorem State.logPt_ptCur (w : PtWrite) : (s.logPt w).ptCur = s.ptCur := rfl
@[simp] theorem State.logPt_ptEn (w : PtWrite) : (s.logPt w).ptEn = s.ptEn := rfl
@[simp] theorem State.logPt_oe (w : PtWrite) : (s.logPt w).oe = s.oe := rfl
@[simp] theorem State.logPt_ptStart (w : PtWrite) : (s.logPt w).ptStart = s.ptStart := rfl
@[simp] theorem State.logPt_ptHint (w : PtWrite) : (s.logPt w).ptHint = s.ptHint := rfl
@[simp] theorem State.logPt_gpio (w : PtWrite) : (s.logPt w).gpio = s.gpio := rfl
@[simp] theorem State.logPt_t1mhz (w : PtWrite) : (s.logPt w).t1mhz = s.t1mhz := rfl
@[simp] theorem State.logPt_trace (w : PtWrite) : (s.logPt w).trace = s.trace ++ [.ptWrite w] := rfl
@[simp] theorem State.logPt_hostWords (w : PtWrite) : (s.logPt w).hostWords = s.hostWords := rfl
@[simp] theorem State.logPt_agenda (w : PtWrite) : (s.logPt w).agenda = s.agenda := rfl
@[simp] theorem State.logPt_freeCount (w : PtWrite) : (s.logPt w).freeCount = s.freeCount := rfl

@[simp] theorem State.ptRange_cfg (v : Word) : (s.ptRange v).cfg = s.cfg := rfl
@[simp] theorem State.ptRange_mem (v : Word) : (s.ptRange v).mem = s.mem := rfl
@[simp] theorem State.ptRange_frames (v : Word) : (s.ptRange v).frames = s.frames := rfl
@[simp] theorem State.ptRange_numCreated (v : Word) : (s.ptRange v).numCreated = s.numCreated := rfl
@[simp] theorem State.ptRange_active (v : Word) : (s.ptRange v).active = s.active := rfl
@[simp] theorem State.ptRange_pending (v : Word) : (s.ptRange v).pending = s.pending := rfl
@[simp] theorem State.ptRange_swapRet (v : Word) : (s.ptRange v).swapRet = s.swapRet := rfl
@[simp] theorem State.ptRange_stopFlag (v : Word) : (s.ptRange v).stopFlag = s.stopFlag := rfl
@[simp] theorem State.ptRange_run (v : Word) : (s.ptRange v).run = s.run := rfl
@[simp] theorem State.ptRange_host (v : Word) : (s.ptRange v).host = s.host := rfl
@[simp] theorem State.ptRange_cmd (v : Word) : (s.ptRange v).cmd = s.cmd := rfl
@[simp] theorem State.ptRange_rsp (v : Word) : (s.ptRange v).rsp = s.rsp := rfl
@[simp] theorem State.ptRange_seqPc (v : Word) : (s.ptRange v).seqPc = s.seqPc := rfl
@[simp] theorem State.ptRange_seqD (v : Word) : (s.ptRange v).seqD = s.seqD := rfl
@[simp] theorem State.ptRange_seqP (v : Word) : (s.ptRange v).seqP = s.seqP := rfl
@[simp] theorem State.ptRange_seqX (v : Word) : (s.ptRange v).seqX = s.seqX := rfl
@[simp] theorem State.ptRange_ptRng (v : Word) : (s.ptRange v).ptRng = v := rfl
@[simp] theorem State.ptRange_ptFifo (v : Word) : (s.ptRange v).ptFifo = s.ptFifo := rfl
@[simp] theorem State.ptRange_ptHold (v : Word) : (s.ptRange v).ptHold = s.ptHold := rfl
@[simp] theorem State.ptRange_ptCur (v : Word) : (s.ptRange v).ptCur = s.ptCur := rfl
@[simp] theorem State.ptRange_ptEn (v : Word) : (s.ptRange v).ptEn = s.ptEn := rfl
@[simp] theorem State.ptRange_oe (v : Word) : (s.ptRange v).oe = s.oe := rfl
@[simp] theorem State.ptRange_ptStart (v : Word) : (s.ptRange v).ptStart = s.ptStart := rfl
@[simp] theorem State.ptRange_ptHint (v : Word) : (s.ptRange v).ptHint = s.ptHint := rfl
@[simp] theorem State.ptRange_gpio (v : Word) : (s.ptRange v).gpio = s.gpio := rfl
@[simp] theorem State.ptRange_t1mhz (v : Word) : (s.ptRange v).t1mhz = s.t1mhz := rfl
@[simp] theorem State.ptRange_trace (v : Word) : (s.ptRange v).trace = s.trace ++ [.ptWrite (.rng v)] := rfl
@[simp] theorem State.ptRange_hostWords (v : Word) : (s.ptRange v).hostWords = s.hostWords := rfl
@[simp] theorem State.ptRange_agenda (v : Word) : (s.ptRange v).agenda = s.agenda := rfl
@[simp] theorem State.ptRange_freeCount (v : Word) : (s.ptRange v).freeCount = s.freeCount := rfl

@[simp] theorem State.ptControl_run_cfg : (s.ptControl .ctlRun).cfg = s.cfg := rfl
@[simp] theorem State.ptControl_run_mem : (s.ptControl .ctlRun).mem = s.mem := rfl
@[simp] theorem State.ptControl_run_frames : (s.ptControl .ctlRun).frames = s.frames := rfl
@[simp] theorem State.ptControl_run_numCreated : (s.ptControl .ctlRun).numCreated = s.numCreated := rfl
@[simp] theorem State.ptControl_run_active : (s.ptControl .ctlRun).active = s.active := rfl
@[simp] theorem State.ptControl_run_pending : (s.ptControl .ctlRun).pending = s.pending := rfl
@[simp] theorem State.ptControl_run_swapRet : (s.ptControl .ctlRun).swapRet = s.swapRet := rfl
@[simp] theorem State.ptControl_run_stopFlag : (s.ptControl .ctlRun).stopFlag = s.stopFlag := rfl
@[simp] theorem State.ptControl_run_run : (s.ptControl .ctlRun).run = s.run := rfl
@[simp] theorem State.ptControl_run_host : (s.ptControl .ctlRun).host = s.host := rfl
@[simp] theorem State.ptControl_run_cmd : (s.ptControl .ctlRun).cmd = s.cmd := rfl
@[simp] theorem State.ptControl_run_rsp : (s.ptControl .ctlRun).rsp = s.rsp := rfl
@[simp] theorem State.ptControl_run_seqPc : (s.ptControl .ctlRun).seqPc = s.seqPc := rfl
@[simp] theorem State.ptControl_run_seqD : (s.ptControl .ctlRun).seqD = s.seqD := rfl
@[simp] theorem State.ptControl_run_seqP : (s.ptControl .ctlRun).seqP = s.seqP := rfl
@[simp] theorem State.ptControl_run_seqX : (s.ptControl .ctlRun).seqX = s.seqX := rfl
@[simp] theorem State.ptControl_run_ptRng : (s.ptControl .ctlRun).ptRng = s.ptRng := rfl
@[simp] theorem State.ptControl_run_ptFifo : (s.ptControl .ctlRun).ptFifo = s.ptFifo := rfl
@[simp] theorem State.ptControl_run_ptHold : (s.ptControl .ctlRun).ptHold = s.ptHold := rfl
@[simp] theorem State.ptControl_run_ptCur : (s.ptControl .ctlRun).ptCur = s.ptCur := rfl
@[simp] theorem State.ptControl_run_ptEn : (s.ptControl .ctlRun).ptEn = true := rfl
@[simp] theorem State.ptControl_run_oe : (s.ptControl .ctlRun).oe = s.oe := rfl
@[simp] theorem State.ptControl_run_ptStart : (s.ptControl .ctlRun).ptStart = s.ptStart := rfl
@[simp] theorem State.ptControl_run_ptHint : (s.ptControl .ctlRun).ptHint = s.ptHint := rfl
@[simp] theorem State.ptControl_run_gpio : (s.ptControl .ctlRun).gpio = s.gpio := rfl
@[simp] theorem State.ptControl_run_t1mhz : (s.ptControl .ctlRun).t1mhz = s.t1mhz := rfl
@[simp] theorem State.ptControl_run_trace : (s.ptControl .ctlRun).trace = s.trace ++ [.ptWrite (.ctl .ctlRun)] := rfl
@[simp] theorem State.ptControl_run_hostWords : (s.ptControl .ctlRun).hostWords = s.hostWords := rfl
@[simp] theorem State.ptControl_run_agenda : (s.ptControl .ctlRun).agenda = s.agenda := rfl
@[simp] theorem State.ptControl_run_freeCount : (s.ptControl .ctlRun).freeCount = s.freeCount := rfl

@[simp] theorem State.ptControl_quiet_cfg : (s.ptControl .ctlQuiet).cfg = s.cfg := rfl
@[simp] theorem State.ptControl_quiet_mem : (s.ptControl .ctlQuiet).mem = s.mem := rfl
@[simp] theorem State.ptControl_quiet_frames : (s.ptControl .ctlQuiet).frames = s.frames := rfl
@[simp] theorem State.ptControl_quiet_numCreated : (s.ptControl .ctlQuiet).numCreated = s.numCreated := rfl
@[simp] theorem State.ptControl_quiet_active : (s.ptControl .ctlQuiet).active = s.active := rfl
@[simp] theorem State.ptControl_quiet_pending : (s.ptControl .ctlQuiet).pending = s.pending := rfl
@[simp] theorem State.ptControl_quiet_swapRet : (s.ptControl .ctlQuiet).swapRet = s.swapRet := rfl
@[simp] theorem State.ptControl_quiet_stopFlag : (s.ptControl .ctlQuiet).stopFlag = s.stopFlag := rfl
@[simp] theorem State.ptControl_quiet_run : (s.ptControl .ctlQuiet).run = s.run := rfl
@[simp] theorem State.ptControl_quiet_host : (s.ptControl .ctlQuiet).host = s.host := rfl
@[simp] theorem State.ptControl_quiet_cmd : (s.ptControl .ctlQuiet).cmd = s.cmd := rfl
@[simp] theorem State.ptControl_quiet_rsp : (s.ptControl .ctlQuiet).rsp = s.rsp := rfl
@[simp] theorem State.ptControl_quiet_seqPc : (s.ptControl .ctlQuiet).seqPc = s.seqPc := rfl
@[simp] theorem State.ptControl_quiet_seqD : (s.ptControl .ctlQuiet).seqD = s.seqD := rfl
@[simp] theorem State.ptControl_quiet_seqP : (s.ptControl .ctlQuiet).seqP = s.seqP := rfl
@[simp] theorem State.ptControl_quiet_seqX : (s.ptControl .ctlQuiet).seqX = s.seqX := rfl
@[simp] theorem State.ptControl_quiet_ptRng : (s.ptControl .ctlQuiet).ptRng = s.ptRng := rfl
@[simp] theorem State.ptControl_quiet_ptFifo : (s.ptControl .ctlQuiet).ptFifo = [] := rfl
@[simp] theorem State.ptControl_quiet_ptHold : (s.ptControl .ctlQuiet).ptHold = none := rfl
@[simp] theorem State.ptControl_quiet_ptCur : (s.ptControl .ctlQuiet).ptCur = none := rfl
@[simp] theorem State.ptControl_quiet_ptEn : (s.ptControl .ctlQuiet).ptEn = false := rfl
@[simp] theorem State.ptControl_quiet_oe : (s.ptControl .ctlQuiet).oe = false := rfl
@[simp] theorem State.ptControl_quiet_ptStart : (s.ptControl .ctlQuiet).ptStart = s.ptStart := rfl
@[simp] theorem State.ptControl_quiet_ptHint : (s.ptControl .ctlQuiet).ptHint = s.ptHint := rfl
@[simp] theorem State.ptControl_quiet_gpio : (s.ptControl .ctlQuiet).gpio = s.gpio := rfl
@[simp] theorem State.ptControl_quiet_t1mhz : (s.ptControl .ctlQuiet).t1mhz = s.t1mhz := rfl
@[simp] theorem State.ptControl_quiet_trace : (s.ptControl .ctlQuiet).trace = s.trace ++ [.ptWrite (.ctl .ctlQuiet)] := rfl
@[simp] theorem State.ptControl_quiet_hostWords : (s.ptControl .ctlQuiet).hostWords = s.hostWords := rfl
@[simp] theorem State.ptControl_quiet_agenda : (s.ptControl .ctlQuiet).agenda = s.agenda := rfl
@[simp] theorem State.ptControl_quiet_freeCount : (s.ptControl .ctlQuiet).freeCount = s.freeCount := rfl

@[simp] theorem State.stampPulse_cfg (p : BitVec 4) : (s.stampPulse p).cfg = s.cfg := rfl
@[simp] theorem State.stampPulse_mem (p : BitVec 4) : (s.stampPulse p).mem = s.mem := rfl
@[simp] theorem State.stampPulse_frames (p : BitVec 4) : (s.stampPulse p).frames = s.frames := rfl
@[simp] theorem State.stampPulse_numCreated (p : BitVec 4) : (s.stampPulse p).numCreated = s.numCreated := rfl
@[simp] theorem State.stampPulse_active (p : BitVec 4) : (s.stampPulse p).active = s.active := rfl
@[simp] theorem State.stampPulse_pending (p : BitVec 4) : (s.stampPulse p).pending = s.pending := rfl
@[simp] theorem State.stampPulse_swapRet (p : BitVec 4) : (s.stampPulse p).swapRet = s.swapRet := rfl
@[simp] theorem State.stampPulse_stopFlag (p : BitVec 4) : (s.stampPulse p).stopFlag = s.stopFlag := rfl
@[simp] theorem State.stampPulse_run (p : BitVec 4) : (s.stampPulse p).run = s.run := rfl
@[simp] theorem State.stampPulse_host (p : BitVec 4) : (s.stampPulse p).host = s.host := rfl
@[simp] theorem State.stampPulse_cmd (p : BitVec 4) : (s.stampPulse p).cmd = s.cmd := rfl
@[simp] theorem State.stampPulse_rsp (p : BitVec 4) : (s.stampPulse p).rsp = s.rsp := rfl
@[simp] theorem State.stampPulse_seqPc (p : BitVec 4) : (s.stampPulse p).seqPc = s.seqPc := rfl
@[simp] theorem State.stampPulse_seqD (p : BitVec 4) : (s.stampPulse p).seqD = s.seqD := rfl
@[simp] theorem State.stampPulse_seqP (p : BitVec 4) : (s.stampPulse p).seqP = s.seqP := rfl
@[simp] theorem State.stampPulse_seqX (p : BitVec 4) : (s.stampPulse p).seqX = s.seqX := rfl
@[simp] theorem State.stampPulse_ptRng (p : BitVec 4) : (s.stampPulse p).ptRng = s.ptRng := rfl
@[simp] theorem State.stampPulse_ptFifo (p : BitVec 4) : (s.stampPulse p).ptFifo = s.ptFifo := rfl
@[simp] theorem State.stampPulse_ptHold (p : BitVec 4) : (s.stampPulse p).ptHold = s.ptHold := rfl
@[simp] theorem State.stampPulse_ptCur (p : BitVec 4) : (s.stampPulse p).ptCur = s.ptCur := rfl
@[simp] theorem State.stampPulse_ptEn (p : BitVec 4) : (s.stampPulse p).ptEn = s.ptEn := rfl
@[simp] theorem State.stampPulse_oe (p : BitVec 4) : (s.stampPulse p).oe = s.oe := rfl
@[simp] theorem State.stampPulse_ptStart (p : BitVec 4) : (s.stampPulse p).ptStart = s.t1mhz := rfl
@[simp] theorem State.stampPulse_ptHint (p : BitVec 4) : (s.stampPulse p).ptHint = Config.freeHint s.freeCount p := rfl
@[simp] theorem State.stampPulse_gpio (p : BitVec 4) : (s.stampPulse p).gpio = s.gpio := rfl
@[simp] theorem State.stampPulse_t1mhz (p : BitVec 4) : (s.stampPulse p).t1mhz = s.t1mhz := rfl
@[simp] theorem State.stampPulse_trace (p : BitVec 4) : (s.stampPulse p).trace = s.trace := rfl
@[simp] theorem State.stampPulse_hostWords (p : BitVec 4) : (s.stampPulse p).hostWords = s.hostWords := rfl
@[simp] theorem State.stampPulse_agenda (p : BitVec 4) : (s.stampPulse p).agenda = s.agenda := rfl
@[simp] theorem State.stampPulse_freeCount (p : BitVec 4) : (s.stampPulse p).freeCount = s.freeCount + 1 := rfl

@[simp] theorem State.completeSwap_cfg (g : FrameId) : (s.completeSwap g).cfg = s.cfg := rfl
@[simp] theorem State.completeSwap_mem (g : FrameId) : (s.completeSwap g).mem = s.mem := rfl
@[simp] theorem State.completeSwap_frames (g : FrameId) : (s.completeSwap g).frames = s.frames := rfl
@[simp] theorem State.completeSwap_numCreated (g : FrameId) : (s.completeSwap g).numCreated = s.numCreated := rfl
@[simp] theorem State.completeSwap_active (g : FrameId) : (s.completeSwap g).active = s.active := rfl
@[simp] theorem State.completeSwap_pending (g : FrameId) : (s.completeSwap g).pending = s.pending := rfl
@[simp] theorem State.completeSwap_swapRet (g : FrameId) : (s.completeSwap g).swapRet = none := rfl
@[simp] theorem State.completeSwap_stopFlag (g : FrameId) : (s.completeSwap g).stopFlag = s.stopFlag := rfl
@[simp] theorem State.completeSwap_run (g : FrameId) : (s.completeSwap g).run = s.run := rfl
@[simp] theorem State.completeSwap_host (g : FrameId) : (s.completeSwap g).host = .idle := rfl
@[simp] theorem State.completeSwap_cmd (g : FrameId) : (s.completeSwap g).cmd = s.cmd := rfl
@[simp] theorem State.completeSwap_rsp (g : FrameId) : (s.completeSwap g).rsp = rspWord .ok (g.setWidth 16) := rfl
@[simp] theorem State.completeSwap_seqPc (g : FrameId) : (s.completeSwap g).seqPc = s.seqPc := rfl
@[simp] theorem State.completeSwap_seqD (g : FrameId) : (s.completeSwap g).seqD = s.seqD := rfl
@[simp] theorem State.completeSwap_seqP (g : FrameId) : (s.completeSwap g).seqP = s.seqP := rfl
@[simp] theorem State.completeSwap_seqX (g : FrameId) : (s.completeSwap g).seqX = s.seqX := rfl
@[simp] theorem State.completeSwap_ptRng (g : FrameId) : (s.completeSwap g).ptRng = s.ptRng := rfl
@[simp] theorem State.completeSwap_ptFifo (g : FrameId) : (s.completeSwap g).ptFifo = s.ptFifo := rfl
@[simp] theorem State.completeSwap_ptHold (g : FrameId) : (s.completeSwap g).ptHold = s.ptHold := rfl
@[simp] theorem State.completeSwap_ptCur (g : FrameId) : (s.completeSwap g).ptCur = s.ptCur := rfl
@[simp] theorem State.completeSwap_ptEn (g : FrameId) : (s.completeSwap g).ptEn = s.ptEn := rfl
@[simp] theorem State.completeSwap_oe (g : FrameId) : (s.completeSwap g).oe = s.oe := rfl
@[simp] theorem State.completeSwap_ptStart (g : FrameId) : (s.completeSwap g).ptStart = s.ptStart := rfl
@[simp] theorem State.completeSwap_ptHint (g : FrameId) : (s.completeSwap g).ptHint = s.ptHint := rfl
@[simp] theorem State.completeSwap_gpio (g : FrameId) : (s.completeSwap g).gpio = s.gpio := rfl
@[simp] theorem State.completeSwap_t1mhz (g : FrameId) : (s.completeSwap g).t1mhz = s.t1mhz := rfl
@[simp] theorem State.completeSwap_trace (g : FrameId) : (s.completeSwap g).trace = s.trace := rfl
@[simp] theorem State.completeSwap_hostWords (g : FrameId) : (s.completeSwap g).hostWords = s.hostWords := rfl
@[simp] theorem State.completeSwap_agenda (g : FrameId) : (s.completeSwap g).agenda = s.agenda := rfl
@[simp] theorem State.completeSwap_freeCount (g : FrameId) : (s.completeSwap g).freeCount = s.freeCount := rfl

@[simp] theorem State.completeStop_cfg : (s.completeStop).cfg = s.cfg := rfl
@[simp] theorem State.completeStop_mem : (s.completeStop).mem = s.mem := rfl
@[simp] theorem State.completeStop_frames : (s.completeStop).frames = s.frames := rfl
@[simp] theorem State.completeStop_numCreated : (s.completeStop).numCreated = s.numCreated := rfl
@[simp] theorem State.completeStop_active : (s.completeStop).active = s.active := rfl
@[simp] theorem State.completeStop_pending : (s.completeStop).pending = s.pending := rfl
@[simp] theorem State.completeStop_swapRet : (s.completeStop).swapRet = s.swapRet := rfl
@[simp] theorem State.completeStop_stopFlag : (s.completeStop).stopFlag = s.stopFlag := rfl
@[simp] theorem State.completeStop_run : (s.completeStop).run = s.run := rfl
@[simp] theorem State.completeStop_host : (s.completeStop).host = .idle := rfl
@[simp] theorem State.completeStop_cmd : (s.completeStop).cmd = s.cmd := rfl
@[simp] theorem State.completeStop_rsp : (s.completeStop).rsp = rspWord .ok 0#16 := rfl
@[simp] theorem State.completeStop_seqPc : (s.completeStop).seqPc = s.seqPc := rfl
@[simp] theorem State.completeStop_seqD : (s.completeStop).seqD = s.seqD := rfl
@[simp] theorem State.completeStop_seqP : (s.completeStop).seqP = s.seqP := rfl
@[simp] theorem State.completeStop_seqX : (s.completeStop).seqX = s.seqX := rfl
@[simp] theorem State.completeStop_ptRng : (s.completeStop).ptRng = s.ptRng := rfl
@[simp] theorem State.completeStop_ptFifo : (s.completeStop).ptFifo = s.ptFifo := rfl
@[simp] theorem State.completeStop_ptHold : (s.completeStop).ptHold = s.ptHold := rfl
@[simp] theorem State.completeStop_ptCur : (s.completeStop).ptCur = s.ptCur := rfl
@[simp] theorem State.completeStop_ptEn : (s.completeStop).ptEn = s.ptEn := rfl
@[simp] theorem State.completeStop_oe : (s.completeStop).oe = s.oe := rfl
@[simp] theorem State.completeStop_ptStart : (s.completeStop).ptStart = s.ptStart := rfl
@[simp] theorem State.completeStop_ptHint : (s.completeStop).ptHint = s.ptHint := rfl
@[simp] theorem State.completeStop_gpio : (s.completeStop).gpio = s.gpio := rfl
@[simp] theorem State.completeStop_t1mhz : (s.completeStop).t1mhz = s.t1mhz := rfl
@[simp] theorem State.completeStop_trace : (s.completeStop).trace = s.trace := rfl
@[simp] theorem State.completeStop_hostWords : (s.completeStop).hostWords = s.hostWords := rfl
@[simp] theorem State.completeStop_agenda : (s.completeStop).agenda = s.agenda := rfl
@[simp] theorem State.completeStop_freeCount : (s.completeStop).freeCount = s.freeCount := rfl

/-- A frame's settings after they were written. -/
@[simp] theorem State.settings_setSettings_same (f : FrameId) (st : FrameSettings) : (s.setSettings f st).settings f = st := by
  simp [State.settings]

/-- The settings of the other frames are kept. -/
theorem State.settings_setSettings_ne (f g : FrameId) (st : FrameSettings) (h : g ≠ f) :
    (s.setSettings f st).settings g = s.settings g := by
  have : f.toNat ≠ g.toNat := fun e => h (BitVec.eq_of_toNat_eq e.symm)
  simp [State.settings, this]

/-- Settings depend on the field `frames` only. -/
theorem State.settings_congr (t : State) (h : t.frames = s.frames) (f : FrameId) : t.settings f = s.settings f := by
  simp [State.settings, h]

end Sys2Proof.Machine
end

