-- ==== Sys2Proof/Laws/Ops.lean ====
section
/-! SUPPORT. What each shared operation can do, once: the checks, the command port, frame memory through the state. -/

namespace Sys2Proof.Machine

/-- Different values of `run` have different codes, and none has the code 3 (R30). -/
theorem RunState.code_eq {a b : RunState} : (a.code = b.code ↔ a = b) ∧ a.code ≠ 3#2 := by
  cases a <;> cases b <;> decide

/-- Different values of `host` have different codes (R31). -/
theorem HostState.code_eq {a b : HostState} : a.code = b.code ↔ a = b := by
  cases a <;> cases b <;> decide

@[simp] theorem outcomeOf_ok (s : State) : outcomeOf (.ok s) = .next s := rfl

@[simp] theorem outcomeOf_error (e : Fault) : outcomeOf (.error e) = .fault e := rfl

theorem outcomeOf_eq_next {e : Except Fault State} {t : State} : outcomeOf e = .next t ↔ e = .ok t := by
  cases e <;> simp [outcomeOf]

@[simp] theorem failIf_true (st : Status) : failIf true st = some st := rfl

@[simp] theorem failIf_false (st : Status) : failIf false st = none := rfl

@[simp] theorem failIf_eq_none {c : Bool} {st : Status} : failIf c st = none ↔ c = false := by cases c <;> simp [failIf]

@[simp] theorem State.portCheck_eq_none {s : State} : s.portCheck = none ↔ s.run = .scanning := by
  unfold State.portCheck
  split <;> simp_all

/-- The checks of a command that writes a frame pass exactly when the block runs and the frame is created and not active
(R135, R244). -/
theorem State.writeCheck_eq_none {s : State} {f : FrameId} : s.writeCheck f = none ↔ s.run = .scanning ∧ s.writable f := by
  simp only [State.writeCheck, State.frameCheck, State.ownerCheck, Option.or_eq_none_iff, State.portCheck_eq_none,
    failIf_eq_none, decide_eq_false_iff_not, BitVec.not_le]

/-- What one command at the port can do (R94, R241, R244): nothing while the port is blocked, a rejection, or its effect. -/
theorem State.onPort_cases {s t : State} {check : Option Status} {effect : Except Fault State}
    (h : s.onPort check effect = .next t) :
    (s.host ≠ .idle ∧ t = s) ∨ (s.host = .idle ∧ ∃ st, check = some st ∧ t = s.respond st 0#16) ∨
      (s.host = .idle ∧ check = none ∧ effect = .ok t) := by
  unfold State.onPort at h
  split at h
  · rename_i hh
    split at h
    · rename_i st
      right; left
      exact ⟨hh, st, rfl, by simpa using h.symm⟩
    · right; right
      exact ⟨hh, rfl, outcomeOf_eq_next.mp h⟩
  · rename_i hh; left; exact ⟨by simp [hh], by simpa using h.symm⟩
  · rename_i hh; left; exact ⟨by simp [hh], by simpa using h.symm⟩

/-- An accepted command whose checks pass has its effect. -/
theorem State.onPort_accept {s : State} {check : Option Status} {effect : Except Fault State} (h : s.host = .idle)
    (hc : check = none) : s.onPort check effect = outcomeOf effect := by
  simp [State.onPort, h, hc]

/-- An accepted command whose check fails is rejected (R241). -/
theorem State.onPort_reject {s : State} {check : Option Status} {effect : Except Fault State} {st : Status}
    (h : s.host = .idle) (hc : check = some st) : s.onPort check effect = .next (s.respond st 0#16) := by
  simp [State.onPort, h, hc]

/-- A blocked port accepts nothing (R31). -/
theorem State.onPort_blocked {s : State} {check : Option Status} {effect : Except Fault State} (h : s.host ≠ .idle) :
    s.onPort check effect = .next s := by
  unfold State.onPort
  split
  · rename_i hh; exact absurd hh h
  · rfl
  · rfl

/-- Writing words of a frame changes frame memory only. -/
theorem State.patchFrame_eq_ok {s t : State} {f : FrameId} {cs : List CellPatch} :
    s.patchFrame f cs = .ok t ↔ f.toNat < s.cfg.numFrames ∧ t = { s with mem := s.mem.patchAll cs } := by
  unfold State.patchFrame
  split
  · rename_i h; simp [h, eq_comm]
  · rename_i h; simp [h]

/-- Reading a cell that exists gives its word (R61, R169). -/
theorem State.readCell_eq_ok {s : State} {f d p x : Nat} {w : Word} :
    s.readCell f d p x = .ok w ↔
      (f < s.cfg.numFrames ∧ d < s.cfg.half ∧ p < s.cfg.n ∧ x < s.cfg.columns) ∧
        w = s.mem.read (cellAddr s.cfg f d p x) := by
  unfold State.readCell
  split
  · rename_i h; simp [h, eq_comm]
  · rename_i h; simp [h]

/-- What an address reads as after distinct read-modify-writes: the patch that names it, if any (R64). -/
theorem Memory.read_patchAll {m : Memory} (hm : m.wf) (cs : List CellPatch)
    (hd : cs.Pairwise (fun c d => c.addr ≠ d.addr)) (a : Nat) :
    (∃ c ∈ cs, c.addr = a ∧ (m.patchAll cs).read a = (m.read a &&& ~~~c.mask) ||| c.bits) ∨
      ((∀ c ∈ cs, c.addr ≠ a) ∧ (m.patchAll cs).read a = m.read a) := by
  by_cases h : ∃ c ∈ cs, c.addr = a
  · obtain ⟨c, hc, rfl⟩ := h
    exact .inl ⟨c, hc, rfl, Memory.read_patchAll_of_mem hm cs hd c hc⟩
  · simp only [not_exists, not_and] at h
    exact .inr ⟨h, Memory.read_patchAll_of_not_mem hm cs a h⟩

end Sys2Proof.Machine
end

