-- ==== Sys2Proof/Laws/PerInstr.lean ====
section
/-! SUPPORT. Families of statements made per instruction. -/

namespace Sys2Proof.Laws.EncodesInItsFormat

/-- The encoding of an instruction has the format the opcode table gives its row: a command word for a command, a phase code for a
phase (R90). -/
def Statement (i : Instr) : Prop :=
  match i.format with
  | .cmd => ∃ w, encode i = .cmd w
  | .seqPhase => ∃ c, encode i = .phase c

theorem setpixel (f : FrameId) (x y : BitVec 16) (r g b : BitVec 8) : Statement (.setpixel f x y r g b) := ⟨_, rfl⟩
theorem fill (f : FrameId) (r g b : BitVec 8) : Statement (.fill f r g b) := ⟨_, rfl⟩
theorem clear (f : FrameId) : Statement (.clear f) := ⟨_, rfl⟩
theorem setpwmbits (f : FrameId) (v : BitVec 8) : Statement (.setpwmbits f v) := ⟨_, rfl⟩
theorem setbrightness (f : FrameId) (v : BitVec 8) : Statement (.setbrightness f v) := ⟨_, rfl⟩
theorem setlumcorrect (f : FrameId) (v : BitVec 8) : Statement (.setlumcorrect f v) := ⟨_, rfl⟩
theorem width : Statement (.width) := ⟨_, rfl⟩
theorem height : Statement (.height) := ⟨_, rfl⟩
theorem createframe : Statement (.createframe) := ⟨_, rfl⟩
theorem swaponvsync (f : FrameId) : Statement (.swaponvsync f) := ⟨_, rfl⟩
theorem shutdown : Statement (.shutdown) := ⟨_, rfl⟩
theorem top : Statement (.top) := ⟨_, rfl⟩
theorem rowClr : Statement (.rowClr) := ⟨_, rfl⟩
theorem rowSet : Statement (.rowSet) := ⟨_, rfl⟩
theorem colClr : Statement (.colClr) := ⟨_, rfl⟩
theorem colData : Statement (.colData) := ⟨_, rfl⟩
theorem colClk : Statement (.colClk) := ⟨_, rfl⟩
theorem planeClr : Statement (.planeClr) := ⟨_, rfl⟩
theorem planeWait : Statement (.planeWait) := ⟨_, rfl⟩
theorem strobeSet : Statement (.strobeSet) := ⟨_, rfl⟩
theorem strobeClr : Statement (.strobeClr) := ⟨_, rfl⟩
theorem pulse : Statement (.pulse) := ⟨_, rfl⟩
theorem rowWait : Statement (.rowWait) := ⟨_, rfl⟩
theorem teardown : Statement (.teardown) := ⟨_, rfl⟩
theorem halt : Statement (.halt) := ⟨_, rfl⟩

end Sys2Proof.Laws.EncodesInItsFormat
end

