-- ==== Sys2Proof/Laws/Timer.lean ====
section
/-! SUPPORT. What the pulse timer's operations can do, once: the writes of `SendPulse`, the wait, the tick. -/

namespace Sys2Proof.Machine

@[simp] theorem State.ptWrites_nil (s : State) : s.ptWrites [] = .ok s := rfl

/-- Pushing entries onto a FIFO with room for them (R195). -/
theorem State.ptWrites_fifo (s : State) (es : List Word) (ws : List PtWrite)
    (h : s.ptFifo.length + es.length ≤ s.cfg.fifoDepth) :
    s.ptWrites (es.map .fifo ++ ws) =
      State.ptWrites { s with ptFifo := s.ptFifo ++ es, trace := s.trace ++ (es.map .fifo).map .ptWrite } ws := by
  induction es generalizing s with
  | nil => simp
  | cons e es ih =>
    have hlt : s.ptFifo.length < s.cfg.fifoDepth := by simp at h; omega
    simp only [List.map_cons, List.cons_append, State.ptWrites, State.ptWrite, State.ptPush, hlt, if_true]
    rw [ih _ (by simp only [List.length_append, List.length_cons, List.length_nil] at h ⊢; simpa [Nat.add_assoc, Nat.add_comm 1] using h)]
    simp [State.logPt]

/-- The number of entries of a pulse is at most `SPLIT_FACTOR`, and at least one, under a legal configuration (R192). -/
theorem pulseCount_bounds {c : Config} (h : c.legal = true) (p : Nat) : 1 ≤ pulseCount c p ∧ pulseCount c p ≤ 8 := by
  have := ((legal_iff c).mp h).2.2.2.2.2.1.1
  unfold pulseCount
  split <;> omega

/-- `SendPulse` into an empty FIFO with room (R193, R197): the range, the entries and two zeros, enabled; its writes on the trace. -/
theorem State.sendPulse_eq {s : State} (p : BitVec 4) (hq : s.ptFifo = [])
    (hroom : pulseCount s.cfg p.toNat + 2 ≤ s.cfg.fifoDepth) :
    s.sendPulse p = .ok
      { s with
        ptRng := BitVec.ofNat 32 (pulseRange s.cfg p.toNat)
        ptFifo := pulseEntries s.cfg p.toNat ++ [0#32, 0#32]
        ptEn := true
        ptStart := s.t1mhz
        ptHint := Config.freeHint s.freeCount p
        freeCount := s.freeCount + 1
        trace := s.trace ++ (pulseWrites s.cfg p.toNat).map .ptWrite } := by
  have h1 : pulseWrites s.cfg p.toNat = .rng (BitVec.ofNat 32 (pulseRange s.cfg p.toNat)) ::
      ((pulseEntries s.cfg p.toNat ++ [0#32, 0#32]).map .fifo ++ [.ctl .ctlRun]) := by
    simp [pulseWrites]
  rw [State.sendPulse, h1]
  simp only [State.ptWrites, State.ptWrite]
  rw [State.ptWrites_fifo _ _ _ (by simp [hq, pulseEntries]; omega)]
  simp [State.ptWrites, State.ptWrite, State.ptControl, State.stampPulse, State.logPt, State.ptRange, Except.map, hq]

/-- `WaitPulseFinished` (R198). -/
theorem State.waitPulseFinished_eq_some {s t : State} :
    s.waitPulseFinished = some t ↔ s.ptFifo = [] ∧ t = s.ptControl .ctlQuiet := by
  unfold State.waitPulseFinished State.staEmpt
  split
  · rename_i h; simp [List.isEmpty_iff.mp h, eq_comm]
  · rename_i h; simp [List.isEmpty_iff] at h; simp [h]

theorem State.waitPulseFinished_eq_none {s : State} : s.waitPulseFinished = none ↔ s.ptFifo ≠ [] := by
  unfold State.waitPulseFinished State.staEmpt
  split
  · rename_i h; simp [List.isEmpty_iff.mp h]
  · rename_i h; simpa [List.isEmpty_iff] using h

/-- The only state a tick writes: FIFO, holding stage, player, output (R200). -/
theorem State.tick_frame {s t : State} (h : s.tick = .ok t) :
    t = { s with ptFifo := t.ptFifo, ptHold := t.ptHold, ptCur := t.ptCur, oe := t.oe } := by
  unfold State.tick at h
  split at h
  · split at h
    · simp at h
    · simp only [Except.ok.injEq] at h
      subst h
      unfold State.tickLoad State.tickRefill State.tickPlay
      repeat' split
      all_goals rfl
  · simp only [Except.ok.injEq] at h
    subst h; rfl

/-- A tick of a disabled timer changes nothing (R200). -/
theorem State.tick_disabled {s : State} (h : s.ptEn = false) : s.tick = .ok s := by simp [State.tick, h]

/-- A tick of an enabled timer with a range loads, refills and plays (R200). -/
theorem State.tick_enabled {s : State} (h : s.ptEn = true) (hr : s.ptRng ≠ 0#32) :
    s.tick = .ok s.tickLoad.tickRefill.tickPlay := by simp [State.tick, h, hr]

end Sys2Proof.Machine
end

