-- ==== Sys2Proof/Laws/Turns.lean ====
section
/-! SUPPORT. What a step can do, once: which agent moves, and each agent's turn. -/

namespace Sys2Proof.Machine

/-- Taking a turn writes the agenda and the free counter only. -/
theorem State.takeTurn_frame (s : State) :
    s.takeTurn.2 = { s with agenda := s.takeTurn.2.agenda, freeCount := s.takeTurn.2.freeCount } := by
  unfold State.takeTurn
  split <;> rfl

/-- The turn a listed agent takes. -/
theorem State.takeTurn_of_agenda {s : State} {a : Agent} {rest : List Agent} (h : s.agenda = a :: rest) :
    s.takeTurn = (a, { s with agenda := rest }) := by
  simp [State.takeTurn, h]

/-- A step under a legal configuration is the turn of some agent. -/
theorem step_eq {s : State} (h : s.cfg.legal = true) : step s = s.takeTurn.2.turn s.takeTurn.1 := by simp [step, h]

/-- A step that answers a next state was a turn of some agent under a legal configuration. -/
theorem step_next {s t : State} (h : step s = .next t) :
    s.cfg.legal = true ∧ s.takeTurn.2.turn s.takeTurn.1 = .next t := by
  unfold step at h
  split at h
  · rename_i hl; exact ⟨hl, h⟩
  · simp at h

/-- The step of a listed agent. -/
theorem step_of_agenda {s : State} {a : Agent} {rest : List Agent} (hl : s.cfg.legal = true) (h : s.agenda = a :: rest) :
    step s = { s with agenda := rest }.turn a := by
  rw [step_eq hl, State.takeTurn_of_agenda h]

/-- What the producer's turn can do (R94): nothing, or one word presented at an idle port with none waiting. -/
theorem State.hostTurn_cases (s : State) :
    s.hostTurn = s ∨
      (s.host = .idle ∧ s.cmd = none ∧
        ∃ w ws n, s.hostTurn = { s with cmd := some w, hostWords := ws, freeCount := n }) := by
  unfold State.hostTurn
  split
  · rename_i hh hc hw; exact .inr ⟨hh, hc, _, _, s.freeCount, rfl⟩
  · rename_i hh hc hw; exact .inr ⟨hh, hc, Config.freeWord s.freeCount, s.hostWords, s.freeCount + 1, rfl⟩
  · exact .inl rfl

/-- What the command executor's turn can do (R94, R220, R225). -/
theorem State.cmdTurn_cases {s t : State} (h : s.cmdTurn = .next t) :
    t = s ∨ (s.host = .idle ∧ ∃ w, s.cmd = some w ∧ runWord w { s with cmd := none } = .next t) ∨
      (s.host = .waitSwap ∧ ∃ g, s.swapRet = some g ∧ t = s.completeSwap g) ∨
      (s.host = .waitStop ∧ s.run = .stopped ∧ t = s.completeStop) := by
  unfold State.cmdTurn at h
  split at h
  · rename_i hh
    split at h
    · rename_i w hw; exact .inr (.inl ⟨hh, w, hw, h⟩)
    · exact .inl (by simpa using h.symm)
  · rename_i hh
    split at h
    · rename_i g hg; exact .inr (.inr (.inl ⟨hh, g, hg, by simpa using h.symm⟩))
    · exact .inl (by simpa using h.symm)
  · rename_i hh
    split at h
    · rename_i hr; exact .inr (.inr (.inr ⟨hh, hr, by simpa using h.symm⟩))
    · exact .inl (by simpa using h.symm)

/-- What one presented word can do (R244): a rejection, or the meaning of the command it decodes to. -/
theorem runWord_cases {w : CmdWord} {s t : State} (h : runWord w s = .next t) :
    (∃ st, t = s.respond st 0#16) ∨ (s.run = .scanning ∧ ∃ i, decodeCmd w = .ok i ∧ exec i s = .next t) := by
  unfold runWord at h
  split at h
  · rename_i st _; exact .inl ⟨st, by simpa using h.symm⟩
  · rename_i hp
    split at h
    · rename_i i hi; exact .inr ⟨State.portCheck_eq_none.mp hp, i, hi, h⟩
    · exact .inl ⟨.errIllegal, by simpa using h.symm⟩

theorem ifReservedZero_eq_ok {z : Bool} {i j : Instr} : ifReservedZero z i = .ok j ↔ z = true ∧ i = j := by
  cases z <;> simp [ifReservedZero]

/-- Decoding a command word gives a command (R96). -/
theorem decodeCmd_format {w : CmdWord} {i : Instr} (h : decodeCmd w = .ok i) : i.format = .cmd := by
  unfold decodeCmd decodeFields at h
  split at h
  all_goals first
    | (obtain ⟨_, rfl⟩ := ifReservedZero_eq_ok.mp h; rfl)
    | (cases h <;> rfl)

/-- The pickup writes the handoff registers only (R222). -/
theorem State.pickup_frame (s : State) :
    s.pickup = { s with swapRet := s.pickup.swapRet, active := s.pickup.active, pending := s.pickup.pending } := by
  unfold State.pickup
  split <;> rfl

end Sys2Proof.Machine
end

