-- ==== Sys2Proof/Laws/Safety.lean ====
section
/-! SUPPORT. What the shared operations mean in the terms of Safety.lean: cells and frames, patches that keep frame memory good, the
settings, the response value, the durations of a legal configuration, and what `SendPulse` can write. -/

namespace Sys2Proof.Machine

/-- A created frame has its words in frame memory (R25, R60). -/
theorem Inv.frame_lt {s : State} {f : FrameId} (hI : Inv s) (h : s.created f) : f.toNat < s.cfg.numFrames := by
  have h1 := hI.handoffOk.2.1
  have h2 : f.toNat < s.numCreated.toNat := h
  omega

/-- A cell of a frame lies within that frame (R61). -/
theorem inFrame_cell {c : Config} {f : FrameId} {d p x : Nat} (hd : d < c.half) (hp : p < c.n) (hx : x < c.columns) :
    inFrame c f (cellAddr c f.toNat d p x) := by
  have := cellAddr_lt hd hp hx
  simp only [cellAddr_eq _ f.toNat, inFrame, frameBase]
  omega

/-- An address within a frame is a cell of it (R61). -/
theorem exists_cell_of_inFrame {c : Config} {f : FrameId} {a : Nat} (h : inFrame c f a) :
    ∃ d p x, d < c.half ∧ p < c.n ∧ x < c.columns ∧ a = cellAddr c f.toNat d p x := by
  obtain ⟨h1, h2⟩ := h
  obtain ⟨d, p, x, hd, hp, hx, he⟩ := exists_cell (c := c) (a := a - frameBase c f) (by omega)
  refine ⟨d, p, x, hd, hp, hx, ?_⟩
  simp only [cellAddr_eq _ f.toNat, frameBase] at *
  omega

/-- The words of a created frame carry colour bits only (R50 a). -/
theorem Inv.read_color {s : State} (hI : Inv s) {f : FrameId} (hc : s.created f) {a : Nat} (ha : inFrame s.cfg f a) :
    s.mem.read a &&& ~~~colorMask = 0#32 := by
  by_cases h : s.mem.read a = Memory.unlisted
  · rw [h]; decide
  · refine hI.memOk.2.2 _ (Memory.mem_of_read h) ?_
    have h2 : f.toNat < s.numCreated.toNat := hc
    have : (f.toNat + 1) * s.cfg.frameWords ≤ s.numCreated.toNat * s.cfg.frameWords := Nat.mul_le_mul_right _ h2
    simp only [inFrame, frameBase, Nat.add_mul] at *
    omega

/-- Two words of colour bits give a word of colour bits. -/
theorem or_color {a b : Word} (ha : a &&& ~~~colorMask = 0#32) (hb : b &&& ~~~colorMask = 0#32) :
    (a ||| b) &&& ~~~colorMask = 0#32 := by
  rw [BitVec.and_comm, BitVec.and_or_distrib_left, BitVec.and_comm, ha, BitVec.and_comm, hb]; simp

/-- What the three pins of a half-panel take lies within `COLOR_MASK` (R136). -/
theorem pinsBits_color {pins : Nat × Nat × Nat}
    (h : pins.1 ∈ [7, 8, 9, 10, 11, 27] ∧ pins.2.1 ∈ [7, 8, 9, 10, 11, 27] ∧ pins.2.2 ∈ [7, 8, 9, 10, 11, 27])
    (vr vg vb p : Nat) : pinsBits pins vr vg vb p &&& ~~~colorMask = 0#32 :=
  or_color (or_color (planeBit_colorMask h.1 _ _) (planeBit_colorMask h.2.1 _ _)) (planeBit_colorMask h.2.2 _ _)

/-- The pins of a legal configuration are colour pins (R8). -/
theorem legal_pins {c : Config} (h : c.legal = true) : ∀ i ∈ c.colorPins, i ∈ [7, 8, 9, 10, 11, 27] :=
  fun _ hi => ((legal_iff c).mp h).2.2.2.2.2.2.2.2.subset hi

/-- The pins of a legal configuration are six different ones (R8). -/
theorem legal_pins_distinct {c : Config} (h : c.legal = true) : c.colorPins.Nodup :=
  ((legal_iff c).mp h).2.2.2.2.2.2.2.2.nodup_iff.mpr (by decide)

/-- A bit of a single-bit mask (R12). -/
theorem bit_getLsbD {p : Nat} (hp : p < 32) (i : Nat) : (bit p).getLsbD i = decide (i = p) := by
  by_cases hi : i < 32
  · exact (by decide : ∀ p < 32, ∀ i < 32, (bit p).getLsbD i = decide (i = p)) p hp i hi
  · rw [BitVec.getLsbD_of_ge _ i (by omega), eq_comm, decide_eq_false_iff_not]
    omega

/-- A bit of a value spread to a pin (R106). -/
theorem planeBit_getLsbD {pin : Nat} (hp : pin < 32) (v p i : Nat) :
    (planeBit v p pin).getLsbD i = (decide (i = pin) && v.testBit p) := by
  unfold planeBit
  split
  · rw [bit_getLsbD hp]; simp [*]
  · simp [*]

/-- The mapped value, by the correction mode of the frame (R126). -/
theorem mapValue_eq (n : Nat) (st : FrameSettings) (c : BitVec 8) :
    mapValue n st c =
      if st.lum = true then lutCie n st.brightness.toNat c.toNat else linMap n st.brightness.toNat c.toNat := rfl

/-- What `SETPIXEL` writes: words of its frame, colour bits only (R136). -/
theorem pixelPatches_ok {s : State} (hl : s.cfg.legal = true) {f : FrameId} {x y : BitVec 16} {r g b : BitVec 8}
    (hx : x.toNat < s.cfg.columns) :
    ∀ c ∈ pixelPatches s.cfg (s.settings f) f x y r g b, inFrame s.cfg f c.addr ∧ c.bits &&& ~~~colorMask = 0#32 := by
  intro c hc
  have hh := legal_half hl
  have hp := legal_pins hl
  obtain ⟨p, hp', rfl⟩ := List.mem_map.mp hc
  refine ⟨inFrame_cell (Nat.mod_lt _ (by omega)) (mem_activePlanes.mp hp').2 hx, pinsBits_color ?_ _ _ _ _⟩
  unfold halfPins
  split <;> exact ⟨hp _ (by simp [Config.colorPins]), hp _ (by simp [Config.colorPins]), hp _ (by simp [Config.colorPins])⟩

/-- What `FILL` writes: words of its frame, colour bits only (R140). -/
theorem fillPatches_ok {s : State} (hl : s.cfg.legal = true) {f : FrameId} {r g b : BitVec 8} :
    ∀ c ∈ fillPatches s.cfg (s.settings f) f r g b, inFrame s.cfg f c.addr ∧ c.bits &&& ~~~colorMask = 0#32 := by
  intro c hc
  have hp := legal_pins hl
  obtain ⟨⟨d, p, x⟩, hp', rfl⟩ := List.mem_map.mp hc
  obtain ⟨h0, h1, h2⟩ := mem_frameCells.mp hp'
  refine ⟨inFrame_cell h0 (mem_activePlanes.mp h1).2 h2, or_color (pinsBits_color ?_ _ _ _ _) (pinsBits_color ?_ _ _ _ _)⟩
  all_goals exact ⟨hp _ (by simp [Config.colorPins]), hp _ (by simp [Config.colorPins]), hp _ (by simp [Config.colorPins])⟩

/-- What zeroing a frame writes: words of that frame, no bits (R142, R216). -/
theorem zeroPatches_ok {c : Config} {f : FrameId} :
    ∀ q ∈ zeroPatches c f, inFrame c f q.addr ∧ q.bits &&& ~~~colorMask = 0#32 := by
  intro q hq
  obtain ⟨⟨d, p, x⟩, hp', rfl⟩ := List.mem_map.mp hq
  obtain ⟨h0, h1, h2⟩ := mem_frameCells.mp hp'
  exact ⟨inFrame_cell h0 (List.mem_range.mp h1) h2, by simp⟩

/-- Patches of one frame that set colour bits only keep frame memory good (R50 a, R60). -/
theorem State.memOk_patchAll {s : State} (hm : s.memOk) (f : FrameId) (cs : List CellPatch) (hf : f.toNat < s.cfg.numFrames)
    (hcs : ∀ c ∈ cs, inFrame s.cfg f c.addr ∧ c.bits &&& ~~~colorMask = 0#32) :
   State.memOk { s with mem := s.mem.patchAll cs } := by
  have key : ∀ cs : List CellPatch, (∀ c ∈ cs, inFrame s.cfg f c.addr ∧ c.bits &&& ~~~colorMask = 0#32) →
      ∀ m : Memory, State.memOk { s with mem := m } → State.memOk { s with mem := m.patchAll cs } := by
    intro cs
    induction cs with
    | nil => intro _ m h; exact h
    | cons c cs ih =>
      intro hcs m hm
      rw [Memory.patchAll_cons]
      refine ih (fun d hd => hcs d (by simp [hd])) _ ?_
      obtain ⟨hin, hb⟩ := hcs c (by simp)
      have hlt : c.addr < s.cfg.memWords := by
        have := hin.2
        have h2 : (f.toNat + 1) * s.cfg.frameWords ≤ s.cfg.numFrames * s.cfg.frameWords := Nat.mul_le_mul_right _ hf
        simp only [frameBase, Config.memWords, Nat.add_mul] at *; omega
      refine ⟨Memory.wf_patch hm.1 c, ?_, ?_⟩
      · intro e he
        rcases Memory.mem_write he with rfl | h
        · exact hlt
        · exact hm.2.1 e h
      · intro e he hlow
        rcases Memory.mem_write he with rfl | h
        · have hr : m.read c.addr &&& ~~~colorMask = 0#32 := by
            by_cases h : m.read c.addr = Memory.unlisted
            · rw [h]; decide
            · exact hm.2.2 _ (Memory.mem_of_read h) hlow
          apply BitVec.eq_of_getLsbD_eq; intro i hi
          have h1 := congrArg (fun v => v.getLsbD i) hr
          have h2 := congrArg (fun v => v.getLsbD i) hb
          simp only [BitVec.getLsbD_or, BitVec.getLsbD_and, BitVec.getLsbD_not, hi, BitVec.getLsbD_zero] at h1 h2 ⊢
          revert h1 h2
          cases (m.read c.addr).getLsbD i <;> cases c.bits.getLsbD i <;> cases colorMask.getLsbD i <;> simp
        · exact hm.2.2 e h hlow
  exact key cs hcs s.mem hm

/-- Zeroing a frame: its words read zero, the others as before (R142). -/
theorem Memory.read_zeroPatches {c : Config} {m : Memory} {f : FrameId} (hm : m.wf) (a : Nat) :
    (m.patchAll (zeroPatches c f)).read a = if inFrame c f a then 0#32 else m.read a := by
  rcases Memory.read_patchAll hm (zeroPatches c f) zeroPatches_distinct a with ⟨q, hq, rfl, h⟩ | ⟨h, h'⟩
  · rw [h, if_pos (zeroPatches_ok q hq).1]
    obtain ⟨⟨d, p, x⟩, hp, rfl⟩ := List.mem_map.mp hq
    simp
  · rw [h', if_neg]
    intro hin
    obtain ⟨d, p, x, hd, hp, hx, rfl⟩ := exists_cell_of_inFrame hin
    exact h _ (List.mem_map_of_mem (mem_frameCells.mpr ⟨hd, List.mem_range.mpr hp, hx⟩)) rfl

/-- Writing the settings of one frame (R22 to R24). -/
theorem State.settings_setSettings {s : State} {f g : FrameId} {st : FrameSettings} :
    (s.setSettings f st).settings g = if g = f then st else s.settings g := by
  simp only [State.settings, State.setSettings]
  split
  · subst_vars; simp
  · rename_i h
    rw [Vector.getElem_set_ne]
    intro h'
    exact h (BitVec.eq_of_toNat_eq h'.symm)

/-- The value of an `OK` response (R98). -/
theorem rspWord_ok_toNat (v : BitVec 16) : (rspWord .ok v).toNat = v.toNat := by
  have h : rspWord .ok v = v.setWidth 32 := by
    apply BitVec.eq_of_getLsbD_eq
    intro i hi
    simp only [rspWord, Status.code, BitVec.getLsbD_append, BitVec.getLsbD_setWidth]
    interval_cases i <;> simp
  rw [h]
  simp
  omega

/-- The duration of a plane of a legal configuration: at least one tick, below `2^32`, and a multiple of 8 where it is split
(R7, R191). -/
theorem legal_duration {c : Config} (hl : c.legal = true) {p : Nat} (hp : p < c.n) :
    c.baseTicks * 2 ^ p < 2 ^ 32 ∧ 1 ≤ c.baseTicks * 2 ^ p ∧
      (c.widthLimit < c.baseTicks * 2 ^ p → c.baseTicks * 2 ^ p % 8 = 0) := by
  have hL := (legal_iff _).mp hl
  have h1 := hL.2.2.2.2.2.2.2.1
  have h2 : c.baseTicks * 2 ^ p ≤ c.baseTicks * 2 ^ (c.n - 1) :=
    Nat.mul_le_mul_left _ (Nat.pow_le_pow_right (by omega) (by omega))
  have h3 := h1.2.1 p hp
  rw [hL.2.2.2.2.2.1.1] at h3
  have h4 := h1.2.2
  have h5 : 1 ≤ c.baseTicks * 2 ^ p := Nat.mul_pos h1.1 (Nat.two_pow_pos p)
  exact ⟨by omega, h5, by omega⟩

/-- The range `SendPulse` programs is not zero under a legal configuration (R192). -/
theorem legal_range_ne_zero {c : Config} (hl : c.legal = true) {p : Nat} (hp : p < c.n) :
    BitVec.ofNat 32 (pulseRange c p) ≠ 0#32 := by
  have hd := legal_duration hl hp
  have hL := (legal_iff _).mp hl
  intro h
  have h := congrArg BitVec.toNat h
  unfold pulseRange isSplit pulseDur at h
  simp only [BitVec.toNat_ofNat, hL.2.2.2.2.2.1.1, decide_eq_true_eq] at h
  split at h
  · have := hd.2.2 ‹_›; omega
  · omega

/-- All that a list of pulse-timer writes can change, and its events (R194 to R196). -/
theorem State.ptWrites_frame (ws : List PtWrite) (s t : State) (h : s.ptWrites ws = .ok t) :
    t = { s with ptRng := t.ptRng, ptFifo := t.ptFifo, ptHold := t.ptHold, ptCur := t.ptCur, ptEn := t.ptEn, oe := t.oe,
                 trace := t.trace } ∧ t.trace = s.trace ++ ws.map .ptWrite := by
  induction ws generalizing s with
  | nil => cases h; exact ⟨rfl, by simp⟩
  | cons w ws ih =>
    simp only [State.ptWrites] at h
    cases w with
    | rng v =>
      simp only [State.ptWrite] at h
      obtain ⟨h1, h2⟩ := ih _ h
      exact ⟨h1, by rw [h2]; simp [State.ptRange, State.logPt]⟩
    | fifo v =>
      simp only [State.ptWrite, State.ptPush] at h
      split at h
      · rename_i u hu
        split at hu
        · cases hu
          obtain ⟨h1, h2⟩ := ih _ h
          exact ⟨h1, by rw [h2]; simp [State.logPt]⟩
        · cases hu
      · cases h
    | ctl v =>
      simp only [State.ptWrite] at h
      obtain ⟨h1, h2⟩ := ih _ h
      cases v <;> exact ⟨h1, by rw [h2]; simp [State.ptControl, State.logPt]⟩

/-- All that `SendPulse` can change, and its events (R193). -/
theorem State.sendPulse_frame {s t : State} {p : BitVec 4} (h : s.sendPulse p = .ok t) :
    t = { s with ptRng := t.ptRng, ptFifo := t.ptFifo, ptHold := t.ptHold, ptCur := t.ptCur, ptEn := t.ptEn, oe := t.oe,
                 trace := t.trace, ptStart := t.ptStart, ptHint := t.ptHint, freeCount := t.freeCount } ∧
      t.trace = s.trace ++ (pulseWrites s.cfg p.toNat).map .ptWrite := by
  unfold State.sendPulse at h
  cases hw : s.ptWrites (pulseWrites s.cfg p.toNat) with
  | error e => rw [hw] at h; cases h
  | ok u =>
    rw [hw] at h
    cases h
    obtain ⟨h1, h2⟩ := State.ptWrites_frame _ _ _ hw
    refine ⟨?_, h2⟩
    simp only [State.stampPulse]
    rw [h1]

/-- All that the end of a pulse step changes (R175). -/
theorem State.afterPulse_frame (s : State) :
    s.afterPulse = { s with seqP := s.afterPulse.seqP, seqX := s.afterPulse.seqX, seqPc := s.afterPulse.seqPc } := by
  unfold State.afterPulse
  split <;> rfl

/-- All that the end of a half-row changes (R176). -/
theorem State.afterRow_frame (s : State) :
    s.afterRow = { s with seqD := s.afterRow.seqD, seqPc := s.afterRow.seqPc } := by
  unfold State.afterRow
  split <;> rfl

end Sys2Proof.Machine
end

