-- ==== Sys2Proof/Tests/Slice0.lean ====
section
/-! SUPPORT. The model's own tests: ill-formed configurations that WellFormed refuses, the words of spec/30_encoding.md and of
spec/95_test_vectors.md, one step of each instruction on a small state, and for each obligation with hypotheses a state that meets
them. Expected values are the spec's; the vector or rule stands in each docstring. -/

namespace Sys2Proof.Tests

open Sys2Proof.Machine

/-! ## Small machines -/

/-- The configuration of program P3: 4 rows, 2 columns, 8 planes, `BASE_TICKS = 1`, `PT_WIDTH_LIMIT = 15`. -/
def tinyCfg : Config := { Config.standard with rows := 4, columns := 2, n := 8 }

/-- Reset under that configuration. -/
def tiny : State := State.resetFrom tinyCfg ResetInputs.standard

/-- Frame 1 created and free, frame 0 active. -/
def made : State := { tiny with numCreated := 2#4 }

/-- Frame 1 handed over and not yet picked up, the port blocked. -/
def swapping : State := { made with pending := some 1#4, host := .waitSwap }

/-- Shutdown issued, the sequencer not yet at `TEARDOWN`. -/
def stopping : State := { made with stopFlag := true, host := .waitStop }

/-- After shutdown completed. -/
def stopped : State := { made with stopFlag := true, run := .stopped, seqPc := .halt }

/-- After a failed construction (program P5). -/
def failed : State := State.resetFrom tinyCfg { ResetInputs.standard with mapOk := false }

/-- The sequencer at a phase, timer quiescent. -/
def atPhase (p : Phase) : State := { made with seqPc := p }

/-- A pulse of plane 0 running, first tick not yet taken, the sequencer clocking out plane 1. -/
def pulsing : State :=
  { made with seqPc := .colClr, seqP := 1#4, ptEn := true, ptRng := 1#32, ptFifo := [1#32, 0#32, 0#32] }

/-- The state after one instruction, the state itself where it does not run. -/
def after (i : Instr) (s : State) : State :=
  match exec i s with
  | .next t => t
  | .fault _ => s
  | .refused _ => s

/-- The state after one step, the state itself where it stops. -/
def afterStep (s : State) : State :=
  match step s with
  | .next t => t
  | .fault _ => s
  | .refused _ => s

/-- The stored words of a cell over all planes, plane 0 first. -/
def planes (s : State) (f d x : Nat) : List Word :=
  (List.range s.cfg.n).map fun p => s.mem.read (cellAddr s.cfg f d p x)

/-! ## WellFormed: one ill-formed configuration for each check -/

theorem test_standard_is_legal : Config.standard.legal = true := by decide
theorem test_tiny_is_legal : tinyCfg.legal = true := by decide
/-- R6: `ROWS` is even. -/
theorem test_odd_rows_refused : { tinyCfg with rows := 5 : Config }.legal = false := by decide
/-- R6: `ROWS` is at most 16. -/
theorem test_many_rows_refused : { tinyCfg with rows := 18 : Config }.legal = false := by decide
/-- R6: `COLUMNS` is at least 1. -/
theorem test_no_columns_refused : { tinyCfg with columns := 0 : Config }.legal = false := by decide
/-- R6, U5: `PARALLEL` is 1 only. -/
theorem test_two_chains_refused : { tinyCfg with parallel := 2 : Config }.legal = false := by decide
/-- R6: `N` is 8 to 11. -/
theorem test_twelve_planes_refused : { tinyCfg with n := 12 : Config }.legal = false := by decide
/-- R6: `NUM_FRAMES` is 2 to 15. -/
theorem test_sixteen_frames_refused : { tinyCfg with numFrames := 16 : Config }.legal = false := by decide
/-- R7: `SPLIT_FACTOR` is 8. -/
theorem test_split_factor_refused : { tinyCfg with splitFactor := 4 : Config }.legal = false := by decide
/-- R7: `PT_WIDTH_LIMIT` is at least 7. -/
theorem test_width_limit_refused : { tinyCfg with widthLimit := 6 : Config }.legal = false := by decide
/-- R7, R289: `FIFO_DEPTH` is at least `SPLIT_FACTOR + 2`. -/
theorem test_short_fifo_refused : { tinyCfg with fifoDepth := 9 : Config }.legal = false := by decide
/-- V57: `BASE_TICKS = 5`, `PT_WIDTH_LIMIT = 15` is refused. -/
theorem test_v57_refused : { tinyCfg with baseTicks := 5 : Config }.legal = false := by decide
/-- V56: `BASE_TICKS = 3`, `PT_WIDTH_LIMIT = 15` is well formed. -/
theorem test_v56_legal : { tinyCfg with baseTicks := 3 : Config }.legal = true := by decide
/-- R7: the longest duration is below `2^32`. -/
theorem test_long_duration_refused : { tinyCfg with baseTicks := 2 ^ 25 : Config }.legal = false := by decide
/-- R8: two colour lines on one pin are no bijection. -/
theorem test_shared_pin_refused : { tinyCfg with pinB2 := 7 : Config }.legal = false := by decide
/-- R7: a step under a refused configuration is refused. -/
theorem test_step_refuses_configuration :
    step (State.resetFrom { tinyCfg with fifoDepth := 9 } ResetInputs.standard) = .refused .illegalConfig := rfl

/-! ## Decoding: the words of spec/95_test_vectors.md and the codes of R32 -/

/-- V20. -/
theorem test_decode_setpixel :
    decode (.cmd 0x1100050003FFFFFF#64) = .ok (.setpixel 1#4 5#16 3#16 255#8 255#8 255#8) := by decide
/-- V24. -/
theorem test_decode_setpixel_lower :
    decode (.cmd 0x11001F000F0080FF#64) = .ok (.setpixel 1#4 31#16 15#16 0#8 128#8 255#8) := by decide
/-- V31. -/
theorem test_decode_fill : decode (.cmd 0x21000000000AC84D#64) = .ok (.fill 1#4 10#8 200#8 77#8) := by decide
/-- V32. -/
theorem test_decode_clear : decode (.cmd 0x3100000000000000#64) = .ok (.clear 1#4) := by decide
/-- V41. -/
theorem test_decode_setpwmbits : decode (.cmd 0x410000000000000C#64) = .ok (.setpwmbits 1#4 12#8) := by decide
/-- V46. -/
theorem test_decode_setbrightness : decode (.cmd 0x5100000000000065#64) = .ok (.setbrightness 1#4 101#8) := by decide
/-- V49. -/
theorem test_decode_setlumcorrect : decode (.cmd 0x6100000000000002#64) = .ok (.setlumcorrect 1#4 2#8) := by decide
/-- V10. -/
theorem test_decode_width : decode (.cmd 0x7000000000000000#64) = .ok .width := by decide
/-- V11. -/
theorem test_decode_height : decode (.cmd 0x8000000000000000#64) = .ok .height := by decide
/-- V18. -/
theorem test_decode_createframe : decode (.cmd 0x9000000000000000#64) = .ok .createframe := by decide
/-- V12, V17. -/
theorem test_decode_swaponvsync :
    decode (.cmd 0xAF00000000000000#64) = .ok (.swaponvsync 0xF#4) ∧
      decode (.cmd 0xA100000000000000#64) = .ok (.swaponvsync 1#4) := by decide
/-- Program P4, step 17. -/
theorem test_decode_shutdown : decode (.cmd 0xB000000000000000#64) = .ok .shutdown := by decide
/-- Section 2.2 of the vectors: words that select no command. -/
theorem test_decode_illegal :
    decode (.cmd 0x0000000000000000#64) = .error .reservedOpcode ∧ decode (.cmd 0xC000000000000000#64) = .error .reservedOpcode ∧
      decode (.cmd 0xFFFFFFFFFFFFFFFF#64) = .error .reservedOpcode ∧
      decode (.cmd 0x7100000000000000#64) = .error .reservedField ∧
      decode (.cmd 0x3100000000000001#64) = .error .reservedField ∧
      decode (.cmd 0x2100010000000000#64) = .error .reservedField ∧
      decode (.cmd 0x4100000000000108#64) = .error .reservedField ∧
      decode (.cmd 0xA100000001000000#64) = .error .reservedField ∧
      decode (.cmd 0x9000000000000001#64) = .error .reservedField ∧
      decode (.cmd 0xBF00000000000000#64) = .error .reservedField := by
  decide

/-- R32: the codes of `seq_pc`, in the order of the table; 14 and 15 name no phase. -/
theorem test_decode_phases :
    (List.range 16).map (fun k => (decode (.phase (BitVec.ofNat 4 k))).toOption) =
      [some .top, some .rowClr, some .rowSet, some .colClr, some .colData, some .colClk, some .planeClr, some .planeWait,
        some .strobeSet, some .strobeClr, some .pulse, some .rowWait, some .teardown, some .halt, none, none] := by decide
/-- V20 as a table word, and the code of `PULSE` in one byte. -/
theorem test_decode_table_words :
    decodeTableWord 64 0x1100050003FFFFFF = some (.setpixel 1#4 5#16 3#16 255#8 255#8 255#8) ∧
      decodeTableWord 8 10 = some .pulse ∧ decodeTableWord 8 15 = none := by decide
/-- The next step after reset runs the word placed: V10, `WIDTH`. -/
theorem test_fetch_width :
    step (State.reset.withFetchWord 64 0x7000000000000000) = .next { State.reset with rsp := 0x00000020#32 } := rfl
/-- The next step after reset runs the phase placed: R173, `STROBE_SET`. -/
theorem test_fetch_strobe :
    step (State.reset.withFetchWord 8 8) =
      .next { State.reset with gpio := 0x00000010#32, trace := [.gpioSet 0x00000010#32], seqPc := .strobeClr } := rfl

/-! ## Codes, masks, rows and the luminance tables -/

/-- R30, R31: the codes of `run` and of `host`. -/
theorem test_codes :
    [RunState.scanning, .stopped, .failed].map RunState.code = [0#2, 1#2, 2#2] ∧
      [HostState.idle, .waitSwap, .waitStop].map HostState.code = [0#2, 1#2, 2#2] := by decide
/-- R183: with the address lines at 1 and `HALF = 2`, the upper lines light row 1, the lower lines row 3. -/
theorem test_lit_rows :
    [11, 27, 7, 8, 9, 10].map { made with gpio := 0x00400000#32 : State }.litPhysicalRow = [1, 1, 1, 3, 3, 3] := by decide

/-- R14: the named masks. -/
theorem test_masks :
    strobeMask = 0x00000010#32 ∧ clkMask = 0x00020000#32 ∧ oeBit = 0x00040000#32 ∧ rowMask = 0x01C00000#32 ∧
      colorMask = 0x08000F80#32 ∧ colorClkMask = 0x08020F80#32 ∧ allMask = 0x09C20F90#32 := by decide
/-- V2, `N = 8` and `N = 11`. -/
theorem test_v2 :
    (List.range 18).map (fun i => lutCie 8 100 (15 * i)) =
        [0, 1, 3, 6, 10, 15, 22, 30, 40, 53, 68, 85, 106, 129, 155, 185, 218, 255] ∧
      (List.range 18).map (fun i => lutCie 11 100 (15 * i)) =
        [0, 13, 28, 49, 81, 122, 176, 245, 328, 429, 549, 689, 851, 1036, 1247, 1485, 1751, 2047] := by decide
/-- V4 and V5. -/
theorem test_v4_v5 :
    [0, 1, 2, 20, 21, 22, 64, 127, 128, 129, 200, 254, 255].map (lutCie 8 75) =
        [0, 0, 0, 1, 1, 1, 6, 24, 25, 25, 68, 121, 123] ∧
      lutCie 8 8 255 = 2 ∧ lutCie 11 9 226 = 18 ∧ lutCie 11 9 227 = 18 ∧ lutCie 8 100 20 = 2 ∧ lutCie 8 100 21 = 2 := by
  decide
/-- V7. -/
theorem test_v7 :
    [0, 1, 128, 255].map (linMap 8 100) = [0, 1, 128, 255] ∧
      [0, 1, 3, 128, 255].map (linMap 11 50) = [0, 0, 8, 512, 1016] ∧ linMap 11 100 255 = 2040 ∧
      [99, 100, 255].map (linMap 11 1) = [0, 8, 16] := by decide

/-! ## Canvas commands -/

/-- Panel of 16 rows and 32 columns with 8 planes, frame 1 created. -/
def wide : State := { State.resetFrom { Config.standard with n := 8 } ResetInputs.standard with numCreated := 2#4 }

/-- V24: last column, last row, lower half. -/
theorem test_setpixel_lower_half :
    planes (after (.setpixel 1#4 31#16 15#16 0#8 128#8 255#8) wide) 1 7 31 =
      [0x600#32, 0x600#32, 0x600#32, 0x600#32, 0x400#32, 0x600#32, 0x400#32, 0x400#32] := by decide

/-- V22, on half-row 1 of the small panel: only the three upper bits are cleared. -/
theorem test_setpixel_keeps_the_other_half :
    planes (after (.setpixel 1#4 0#16 1#16 0#8 0#8 0#8)
        (after (.fill 1#4 255#8 255#8 255#8) made)) 1 1 0 = List.replicate 8 0x00000700#32 := by decide

/-- V30: every word becomes the two green lines. -/
theorem test_fill_green :
    (List.range 64).map (after (.fill 1#4 0#8 255#8 0#8) made).mem.read =
      List.replicate 32 0#32 ++ List.replicate 32 0x08000200#32 := by decide

/-- V33: the planes below the depth keep their old words. -/
theorem test_fill_stale_planes :
    planes (after (.fill 1#4 0#8 0#8 0#8)
        (after (.setpwmbits 1#4 4#8) (after (.fill 1#4 255#8 255#8 255#8) made))) 1 1 1 =
      List.replicate 4 0x08000F80#32 ++ List.replicate 4 0#32 := by decide

/-- V32, V34: every plane is zeroed, settings and the other frame are kept. -/
theorem test_clear :
    after (.clear 1#4) (after (.fill 1#4 255#8 255#8 255#8) made) = { made with rsp := 0#32 } := by decide

/-- V41 and V44. -/
theorem test_setpwmbits :
    (after (.setpwmbits 1#4 9#8) made).rsp = 0x10000000#32 ∧
      ((after (.setpwmbits 1#4 1#8) made).settings 1#4).pwmBits = 1#4 := by decide

/-- V46 and V48. -/
theorem test_setbrightness :
    (after (.setbrightness 1#4 101#8) made).rsp = 0x10000000#32 ∧
      ((after (.setbrightness 1#4 50#8) made).settings 1#4).brightness = 50#7 := by decide

/-- V49 and V50. -/
theorem test_setlumcorrect :
    (after (.setlumcorrect 1#4 2#8) made).rsp = 0x10000000#32 ∧
      ((after (.setlumcorrect 1#4 0#8) made).settings 1#4).lum = false := by decide

/-- V10. -/
theorem test_width : (after .width State.reset).rsp = 0x00000020#32 := by decide
/-- V11. -/
theorem test_height : (after .height State.reset).rsp = 0x00000010#32 := by decide

/-- The priorities of section 2.2 (R244): active before range, existence before range, active before coordinates. -/
theorem test_check_order :
    (after (.setpwmbits 0#4 0#8) made).rsp = 0x60000000#32 ∧ (after (.setpwmbits 5#4 0#8) made).rsp = 0x30000000#32 ∧
      (after (.setpixel 0#4 32#16 0#16 255#8 255#8 255#8) made).rsp = 0x60000000#32 := by decide

/-! ## Double buffer -/

/-- V18. -/
theorem test_createframe : after .createframe tiny = { tiny with numCreated := 2#4, rsp := 1#32 } := by decide
/-- V19. -/
theorem test_createframe_exhausted : after .createframe made = { made with rsp := 0x70000000#32 } := by decide
/-- Program P3, step 6. -/
theorem test_swap_issue : after (.swaponvsync 1#4) made = swapping := by decide
/-- V16 and V17: the active frame, and a frame not created. -/
theorem test_swap_refused :
    (after (.swaponvsync 0#4) made).rsp = 0x60000000#32 ∧ (after (.swaponvsync 1#4) tiny).rsp = 0x30000000#32 := by decide
/-- Program P4, step 17. -/
theorem test_shutdown_issue : after .shutdown made = stopping := by decide
/-- Program P5, step 5: it does not block. -/
theorem test_shutdown_after_failure : after .shutdown failed = { failed with rsp := 0x50000000#32 } := by decide
/-- Program P3, steps 8 and 9: the pickup, then the completion. -/
theorem test_top_pickup :
    afterStep (afterStep { swapping with agenda := [.seq, .cmd] }) =
      { made with active := 1#4, seqPc := .rowClr, rsp := 0#32 } := by decide
/-- Program P4, step 19. -/
theorem test_top_stop : after .top stopping = { stopping with seqPc := .teardown } := by decide
/-- Program P4, step 20. -/
theorem test_teardown :
    after .teardown { stopping with gpio := 0xFFFFFFFF#32 } =
      { stopping with gpio := 0xF63DF06F#32, trace := [.gpioClr 0x09C20F90#32], run := .stopped, seqPc := .halt } := by
  decide
/-- R164: `HALT` has no step. -/
theorem test_halt : after .halt stopped = stopped := by decide
/-- V73: the state check precedes decoding. -/
theorem test_stopped_before_decoding :
    afterStep { stopped with agenda := [.cmd], cmd := some 0#64 } = { stopped with rsp := 0x40000000#32 } := by decide

/-! ## Scan sequencer -/

/-- V65, `d = 1`. -/
theorem test_row_clr :
    (after .rowClr { atPhase .rowClr with seqD := 1#3 }).trace = [.gpioClr 0x01800000#32] := by decide
/-- V65, `d = 1`; R166: the first plane at depth 2 of 8. -/
theorem test_row_set :
    (after .rowSet { atPhase .rowSet with seqD := 1#3, active := 1#4, frames := (after (.setpwmbits 1#4 2#8) made).frames }) =
      { atPhase .colClr with seqD := 1#3, active := 1#4, frames := (after (.setpwmbits 1#4 2#8) made).frames,
                             gpio := 0x00400000#32, trace := [.gpioSet 0x00400000#32], seqP := 6#4 } := by decide
/-- R168. -/
theorem test_col_clr :
    after .colClr { atPhase .colClr with gpio := 0xFFFFFFFF#32 } =
      { atPhase .colData with gpio := 0xF7FDF07F#32, trace := [.gpioClr 0x08020F80#32] } := by decide
/-- R169: the stored word `0x0000_0800` of plane 6, row 1, column 1. -/
theorem test_col_data :
    (after .colData { atPhase .colData with mem := [(29, 0x800#32)], seqD := 1#3, seqP := 6#4, seqX := 1#16 }).trace =
      [.gpioSet 0x00000800#32] := by decide
/-- R170: the next column, and the end of the plane. -/
theorem test_col_clk :
    after .colClk (atPhase .colClk) =
        { atPhase .colClr with gpio := 0x00020000#32, trace := [.gpioSet 0x00020000#32], seqX := 1#16 } ∧
      (after .colClk { atPhase .colClk with seqX := 1#16 }).seqPc = .planeClr := by decide
/-- R171. -/
theorem test_plane_clr :
    after .planeClr (atPhase .planeClr) = { atPhase .planeWait with trace := [.gpioClr 0x08020F80#32] } := by decide
/-- R172: the write is made where nothing is outstanding, and there is no step while `STA.EMPT = 0`. -/
theorem test_plane_wait :
    after .planeWait (atPhase .planeWait) = { atPhase .strobeSet with trace := [.ptWrite (.ctl .ctlQuiet)] } ∧
      after .planeWait { pulsing with seqPc := .planeWait } = { pulsing with seqPc := .planeWait } := by decide
/-- R173. -/
theorem test_strobe_set :
    after .strobeSet (atPhase .strobeSet) =
      { atPhase .strobeClr with gpio := 0x00000010#32, trace := [.gpioSet 0x00000010#32] } := by decide
/-- R174. -/
theorem test_strobe_clr :
    after .strobeClr { atPhase .strobeClr with gpio := 0x00000010#32 } =
      { atPhase .pulse with trace := [.gpioClr 0x00000010#32] } := by decide
/-- V55, plane 7: twelve writes; the half-row then ends. -/
theorem test_pulse_split :
    (after .pulse { atPhase .pulse with seqP := 7#4 }).trace =
        [.ptWrite (.rng 16#32)] ++ List.replicate 8 (.ptWrite (.fifo 16#32)) ++
          [.ptWrite (.fifo 0#32), .ptWrite (.fifo 0#32), .ptWrite (.ctl .ctlRun)] ∧
      (after .pulse { atPhase .pulse with seqP := 7#4 }).seqPc = .rowWait := by decide
/-- V55, plane 3: five writes; the next plane follows. -/
theorem test_pulse_whole :
    (after .pulse { atPhase .pulse with seqP := 3#4 }).trace =
        [.ptWrite (.rng 8#32), .ptWrite (.fifo 8#32), .ptWrite (.fifo 0#32), .ptWrite (.fifo 0#32),
          .ptWrite (.ctl .ctlRun)] ∧
      (after .pulse { atPhase .pulse with seqP := 3#4 }).seqP = 4#4 := by decide
/-- R176: the next half-row, and the top of the buffer. -/
theorem test_row_wait :
    (after .rowWait (atPhase .rowWait)).seqPc = .rowClr ∧ (after .rowWait (atPhase .rowWait)).seqD = 1#3 ∧
      (after .rowWait { atPhase .rowWait with seqD := 1#3 }).seqPc = .top := by decide

/-- V64: the first nine events after reset. -/
theorem test_v64 :
    (match State.seqTurns 10 tiny with
      | .next t => t.trace
      | .fault _ => []
      | .refused _ => []) =
      [.gpioClr 0x01C00000#32, .gpioSet 0#32, .gpioClr 0x08020F80#32, .gpioSet 0#32, .gpioSet 0x00020000#32,
        .gpioClr 0x08020F80#32, .gpioSet 0#32, .gpioSet 0x00020000#32, .gpioClr 0x08020F80#32] := by decide

/-! ## Pulse timer -/

/-- What V58 lists after tick `k`: player, holding stage, FIFO, output. -/
def ticked (k : Nat) (s : State) : Option (Option Player × Option Word × List Word × Bool) :=
  match State.ticks k s with
  | .ok t => some (t.ptCur, t.ptHold, t.ptFifo, t.oe)
  | .error _ => none

/-- V58, ticks 1, 4 and 7. -/
theorem test_v58 :
    [1, 4, 7].map (fun k => ticked k { tiny with ptEn := true, ptRng := 3#32, ptFifo := [3#32, 3#32, 0#32, 0#32] }) =
      [some (some ⟨2#32, 2#32⟩, some 3#32, [0#32, 0#32], true), some (some ⟨2#32, 2#32⟩, some 0#32, [0#32], true),
        some (some ⟨0#32, 2#32⟩, some 0#32, [], false)] := by decide
/-- V60: an entry below the range. -/
theorem test_v60 :
    [1, 2, 3, 4, 5].map (fun k =>
        (ticked k { tiny with ptEn := true, ptRng := 4#32, ptFifo := [2#32, 0#32, 0#32] }).map fun q => (q.2.2.2, q.2.2.1.isEmpty)) =
      [some (true, false), some (true, false), some (false, false), some (false, false), some (false, true)] := by decide
/-- U7: a tick with range 0 is a fault. -/
theorem test_tick_range_zero : { tiny with ptEn := true }.tick = .error .tickWithRangeZero := by decide

/-! ## Witnesses: states that meet the hypotheses of the obligations -/

theorem inv_tiny : Inv tiny :=
  ⟨by decide, by decide, by decide, by decide, by decide, by decide, by decide, by decide⟩
theorem inv_made : Inv made :=
  ⟨by decide, by decide, by decide, by decide, by decide, by decide, by decide, by decide⟩
theorem inv_swapping : Inv swapping :=
  ⟨by decide, by decide, by decide, by decide, by decide, by decide, by decide, by decide⟩
theorem inv_stopping : Inv stopping :=
  ⟨by decide, by decide, by decide, by decide, by decide, by decide, by decide, by decide⟩
theorem inv_stopped : Inv stopped :=
  ⟨by decide, by decide, by decide, by decide, by decide, by decide, by decide, by decide⟩
theorem inv_failed : Inv failed :=
  ⟨by decide, by decide, by decide, by decide, by decide, by decide, by decide, by decide⟩
theorem pulsing_shape : pulsing.pulseShape := ⟨fun _ => .inl ⟨rfl, ⟨[1#32], rfl⟩⟩, fun _ he => nomatch he⟩
theorem pulsing_dark : (darkPhase pulsing.seqPc → pulsing.quiescent) ∧ (pulsing.ptEn = false → pulsing.quiescent) := by decide
theorem inv_pulsing : Inv pulsing :=
  ⟨by decide, by decide, by decide, by decide, by decide, by decide,
    ⟨by decide, by decide, pulsing_dark.1, pulsing_dark.2, fun _ => ⟨by decide, pulsing_shape⟩⟩, by decide⟩
theorem inv_colClr : Inv (atPhase .colClr) :=
  ⟨by decide, by decide, by decide, by decide, by decide, by decide, by decide, by decide⟩
theorem inv_colData : Inv (atPhase .colData) :=
  ⟨by decide, by decide, by decide, by decide, by decide, by decide, by decide, by decide⟩
theorem inv_pulse : Inv (atPhase .pulse) :=
  ⟨by decide, by decide, by decide, by decide, by decide, by decide, by decide, by decide⟩
theorem inv_lastPlane : Inv { atPhase .pulse with seqP := 7#4 } :=
  ⟨by decide, by decide, by decide, by decide, by decide, by decide, by decide, by decide⟩
theorem inv_strobeSet : Inv (atPhase .strobeSet) :=
  ⟨by decide, by decide, by decide, by decide, by decide, by decide, by decide, by decide⟩
theorem inv_rowSet : Inv { atPhase .rowSet with seqD := 1#3 } :=
  ⟨by decide, by decide, by decide, by decide, by decide, by decide, by decide, by decide⟩

theorem witness_DecodeOfEncodeIsTheInstruction : (Instr.setpixel 1#4 5#16 3#16 255#8 255#8 255#8).wellFormed = true := rfl
theorem witness_EncodeOfDecodeIsTheWord : decode (.cmd 0x21000000000AC84D#64) = .ok (.fill 1#4 10#8 200#8 77#8) := by decide
theorem witness_AcceptedExactlyWhenOneRowMatches :
    decodeCmd 0x3F00000000000000#64 = .ok (.clear 0xF#4) ∧
      ∃ r ∈ cmdTable, r.selects 0x3F00000000000000#64 = true := by decide

theorem witness_StepRunsThePresentedCommand :
    (let s : State := { made with agenda := [.cmd, .seq], cmd := some 0x7000000000000000#64 }
     s.cfg.legal = true ∧ s.agenda = .cmd :: [.seq] ∧ s.host = .idle ∧ s.cmd = some 0x7000000000000000#64 ∧
       decodeCmd 0x7000000000000000#64 = .ok .width) := by decide
theorem witness_StepRunsTheSequencerPhase :
    (let s : State := { atPhase .colClk with agenda := [.seq] }
     s.cfg.legal = true ∧ s.agenda = .seq :: [] ∧ decode (.phase s.seqPc.code) = .ok .colClk) := by decide
theorem witness_OtherAgentsTakeTheirTurn :
    tiny.cfg.legal = true ∧ { tiny with agenda := [.pt] }.agenda = .pt :: [] ∧ { tiny with agenda := [.t1m] }.agenda = .t1m :: [] ∧
      (let s : State := { tiny with agenda := [.host], hostWords := [0x7000000000000000#64] }
       s.agenda = .host :: [] ∧ s.host = .idle ∧ s.cmd = none ∧ s.hostWords = 0x7000000000000000#64 :: []) ∧
      (let s : State := { tiny with agenda := [.host] }
       s.agenda = .host :: [] ∧ s.host = .idle ∧ s.cmd = none ∧ s.hostWords = []) ∧
      (let s : State := { swapping with agenda := [.host] }
       s.agenda = .host :: [] ∧ (s.host ≠ .idle ∨ s.cmd ≠ none)) := by decide
theorem witness_WordsRefusedBeforeTheirMeaning :
    (∀ s ∈ [failed, stopped, made], s.cfg.legal = true ∧ s.host = .idle) ∧ failed.run = .failed ∧ stopped.run = .stopped ∧
      made.run = .scanning ∧ decodeCmd 0xC000000000000000#64 = .error .reservedOpcode := by decide
theorem witness_FrameChecksInOrder :
    writesFrame (.clear 1#4) = some 1#4 ∧ failed.host = .idle ∧ failed.run = .failed ∧ stopped.host = .idle ∧
      stopped.run = .stopped ∧ made.host = .idle ∧ made.run = .scanning ∧ ¬ made.created 2#4 ∧ made.created 0#4 ∧
      made.active = 0#4 ∧ (2#4 : FrameId) ≠ 0xF#4 := by decide
theorem witness_BlockedPortAcceptsNothing :
    (Instr.clear 0#4).format = .cmd ∧ swapping.host ≠ .idle ∧ stopping.host ≠ .idle := by decide

/-- Frame 1 with the correction off. -/
def linear : State := { made with frames := made.frames.set 1 ⟨50#7, 8#4, false⟩ }

theorem inv_linear : Inv linear :=
  ⟨by decide, by decide, by decide, by decide, by decide, by decide, by decide, by decide⟩

/-- Frame 1 as created draws through the table at brightness 100 (R126). -/
theorem made_draws (c : BitVec 8) : lutCie 8 100 c.toNat = if (made.settings 1#4).lum = true
    then lutCie made.cfg.n (made.settings 1#4).brightness.toNat c.toNat
    else linMap made.cfg.n (made.settings 1#4).brightness.toNat c.toNat := by
  have h1 : (made.settings 1#4).lum = true := by decide
  have h2 : made.cfg.n = 8 := by decide
  have h3 : (made.settings 1#4).brightness.toNat = 100 := by decide
  rw [if_pos h1, h2, h3]

/-- With the correction off it draws through the linear mode at its brightness (R126). -/
theorem linear_draws (c : BitVec 8) : linMap 8 50 c.toNat = if (linear.settings 1#4).lum = true
    then lutCie linear.cfg.n (linear.settings 1#4).brightness.toNat c.toNat
    else linMap linear.cfg.n (linear.settings 1#4).brightness.toNat c.toNat := by
  have h1 : ¬ (linear.settings 1#4).lum = true := by decide
  have h2 : linear.cfg.n = 8 := by decide
  have h3 : (linear.settings 1#4).brightness.toNat = 50 := by decide
  rw [if_neg h1, h2, h3]

/-- The last row and column in range (lower half, table), and the last row of the upper half with the correction off. -/
theorem witness_SetpixelWritesItsCells :
    (Inv made ∧ made.accepting ∧ made.writable 1#4 ∧ (1#16).toNat < made.cfg.columns ∧ (3#16).toNat < made.cfg.totalRows ∧
      (∀ c : BitVec 8, lutCie 8 100 c.toNat = if (made.settings 1#4).lum = true
        then lutCie made.cfg.n (made.settings 1#4).brightness.toNat c.toNat
        else linMap made.cfg.n (made.settings 1#4).brightness.toNat c.toNat) ∧
      (8, 9, 10) = (if (3#16).toNat < made.cfg.half then (made.cfg.pinR1, made.cfg.pinG1, made.cfg.pinB1)
        else (made.cfg.pinR2, made.cfg.pinG2, made.cfg.pinB2))) ∧
      Inv linear ∧ linear.accepting ∧ linear.writable 1#4 ∧ (1#16).toNat < linear.cfg.columns ∧
        (1#16).toNat < linear.cfg.totalRows ∧
        (∀ c : BitVec 8, linMap 8 50 c.toNat = if (linear.settings 1#4).lum = true
          then lutCie linear.cfg.n (linear.settings 1#4).brightness.toNat c.toNat
          else linMap linear.cfg.n (linear.settings 1#4).brightness.toNat c.toNat) ∧
        (11, 27, 7) = (if (1#16).toNat < linear.cfg.half then (linear.cfg.pinR1, linear.cfg.pinG1, linear.cfg.pinB1)
          else (linear.cfg.pinR2, linear.cfg.pinG2, linear.cfg.pinB2)) :=
  ⟨⟨inv_made, by decide, by decide, by decide, by decide, made_draws, by decide⟩, inv_linear, by decide, by decide, by decide,
    by decide, linear_draws, by decide⟩
/-- The first coordinates out of range, each alone. -/
theorem witness_SetpixelOutOfRangeIsIgnored :
    made.accepting ∧ made.writable 1#4 ∧ (made.cfg.columns ≤ (2#16).toNat ∨ made.cfg.totalRows ≤ (0#16).toNat) ∧
      (made.cfg.columns ≤ (0#16).toNat ∨ made.cfg.totalRows ≤ (4#16).toNat) := by decide
/-- The first coordinate, an upper row, with the correction off. -/
theorem witness_StoredBitsGiveTheMappedValue :
    9 ≤ 9 ∧ Inv linear ∧ linear.accepting ∧ linear.writable 1#4 ∧ (0#16).toNat < linear.cfg.columns ∧
      (0#16).toNat < linear.cfg.totalRows ∧
      (∀ c : BitVec 8, linMap 8 50 c.toNat = if (linear.settings 1#4).lum = true
        then lutCie linear.cfg.n (linear.settings 1#4).brightness.toNat c.toNat
        else linMap linear.cfg.n (linear.settings 1#4).brightness.toNat c.toNat) ∧
      (11, 27, 7) = (if (0#16).toNat < linear.cfg.half then (linear.cfg.pinR1, linear.cfg.pinG1, linear.cfg.pinB1)
        else (linear.cfg.pinR2, linear.cfg.pinG2, linear.cfg.pinB2)) :=
  ⟨by decide, inv_linear, by decide, by decide, by decide, by decide, linear_draws, by decide⟩
theorem witness_SetpixelIsIdempotent : Inv made := inv_made
/-- With the correction off. -/
theorem witness_FillWritesTheActivePlanes :
    Inv linear ∧ linear.accepting ∧ linear.writable 1#4 ∧
      ∀ c : BitVec 8, linMap 8 50 c.toNat = if (linear.settings 1#4).lum = true
        then lutCie linear.cfg.n (linear.settings 1#4).brightness.toNat c.toNat
        else linMap linear.cfg.n (linear.settings 1#4).brightness.toNat c.toNat :=
  ⟨inv_linear, by decide, by decide, linear_draws⟩
theorem witness_FillIsSetpixelEverywhere :
    Inv made ∧ made.accepting ∧ made.writable 1#4 ∧
      ∀ x y : BitVec 16, x.toNat < made.cfg.columns → y.toNat < made.cfg.totalRows →
        (x, y) ∈ [(1#16, 3#16), (0#16, 0#16), (0#16, 1#16), (0#16, 2#16), (0#16, 3#16), (1#16, 0#16), (1#16, 1#16), (1#16, 2#16)] := by
  refine ⟨inv_made, by decide, by decide, fun x y hx hy => ?_⟩
  have hx' : x.toNat < 2 := hx
  have hy' : y.toNat < 4 := hy
  have h : ∀ a < 2, ∀ b < 4, (BitVec.ofNat 16 a, BitVec.ofNat 16 b) ∈
      [(1#16, 3#16), (0#16, 0#16), (0#16, 1#16), (0#16, 2#16), (0#16, 3#16), (1#16, 0#16), (1#16, 1#16), (1#16, 2#16)] := by
    decide
  simpa using h x.toNat hx' y.toNat hy'
theorem witness_ClearZeroesTheFrame : Inv made ∧ made.accepting ∧ made.writable 1#4 := ⟨inv_made, by decide⟩
/-- At full depth, and at depth 2, where planes 0 to 5 are skipped. -/
theorem witness_ClearAgainstFillWithBlack :
    (Inv made ∧ made.accepting ∧ made.writable 1#4 ∧ (made.settings 1#4).pwmBits.toNat = made.cfg.n) ∧
      (let s : State := after (.setpwmbits 1#4 2#8) made
       Inv s ∧ s.accepting ∧ s.writable 1#4 ∧ 1 < s.cfg.half ∧ 5 < s.cfg.n - (s.settings 1#4).pwmBits.toNat ∧ 1 < s.cfg.columns) :=
  ⟨⟨inv_made, by decide⟩,
    ⟨by decide, by decide, by decide, by decide, by decide, by decide, by decide, by decide⟩, by decide⟩
/-- The ends of the three ranges. -/
theorem witness_SettingsTakeTheirArgument :
    made.cfg.legal = true ∧ made.accepting ∧ made.writable 1#4 ∧ (1 ≤ (1#8).toNat ∧ (8#8).toNat ≤ made.cfg.n) ∧
      (1 ≤ (1#8).toNat ∧ (100#8).toNat ≤ 100) ∧ (0#8).toNat ≤ 1 ∧ (1#8).toNat ≤ 1 := by decide
/-- The values next to the ends of the three ranges. -/
theorem witness_ArgumentsOutOfRangeAreRefused :
    made.accepting ∧ made.writable 1#4 ∧ (0#8).toNat = 0 ∧ made.cfg.n < (9#8).toNat ∧ 100 < (101#8).toNat ∧
      1 < (2#8).toNat := by decide
theorem witness_QueriesAnswerTheGeometry : made.cfg.legal = true ∧ made.accepting := by decide
theorem witness_CreateframeMakesTheNextFrame :
    Inv tiny ∧ tiny.accepting ∧ tiny.numCreated.toNat ≠ tiny.cfg.numFrames := ⟨inv_tiny, by decide⟩
theorem witness_CreateframeIsExhausted : made.accepting ∧ made.numCreated.toNat = made.cfg.numFrames := by decide
theorem witness_PeekAnswersTheActiveFrame : made.accepting := by decide
theorem witness_SwapPublishesTheFrame : made.accepting ∧ (1#4 : FrameId) ≠ 0xF#4 ∧ made.writable 1#4 := by decide
theorem witness_SwapHandsBackTheOldFrame :
    (let s : State := { swapping with agenda := [.seq, .cmd] }
     Inv s ∧ s.seqPc = .top ∧ s.stopFlag = false ∧ s.pending = some 1#4 ∧ s.agenda = .seq :: .cmd :: []) :=
  ⟨⟨by decide, by decide, by decide, by decide, by decide, by decide, by decide, by decide⟩, by decide⟩
theorem witness_ShutdownSetsTheStopFlag : made.accepting := by decide
theorem witness_ShutdownEndsDark :
    (let s : State := { stopping with agenda := [.seq, .seq, .cmd] }
     Inv s ∧ s.seqPc = .top ∧ s.stopFlag = true ∧ s.agenda = .seq :: .seq :: .cmd :: []) :=
  ⟨⟨by decide, by decide, by decide, by decide, by decide, by decide, by decide, by decide⟩, by decide⟩
theorem witness_TopChecksStopThenPicksUp :
    stopping.stopFlag = true ∧ made.stopFlag = false ∧ made.pending = none ∧ swapping.stopFlag = false ∧
      swapping.pending = some 1#4 := by decide

/-- The ends of the ranges of depth, brightness and value, for the four statements about the tables. -/
theorem witness_TableIsTheFloorOfTheCurve :
    (8 ≤ 8 ∧ 8 ≤ 11 ∧ 1 ≤ 1 ∧ 1 ≤ 100 ∧ 0 ≤ 255) ∧ 8 ≤ 11 ∧ 11 ≤ 11 ∧ 1 ≤ 100 ∧ 100 ≤ 100 ∧ 255 ≤ 255 := by decide
theorem witness_TableIsMonotonic : 8 ≤ 11 ∧ 11 ≤ 11 ∧ 1 ≤ 100 ∧ 100 ≤ 100 ∧ 254 < 255 := by decide
theorem witness_TableFitsTheDepth : 8 ≤ 8 ∧ 8 ≤ 11 ∧ 1 ≤ 100 ∧ 100 ≤ 100 ∧ 255 ≤ 255 := by decide
theorem witness_LinearModeFitsTheDepth : 8 ≤ 11 ∧ 11 ≤ 11 ∧ 1 ≤ 1 ∧ 1 ≤ 100 ∧ 255 ≤ 255 ∧ 0 ≤ 255 := by decide

theorem witness_RowAddressIsSetInTwoWrites : made.cfg.legal = true := by decide
theorem witness_ColDataDrivesTheStoredWord : Inv (atPhase .colData) := inv_colData
/-- The last column, and the one before it. -/
theorem witness_ColClkStepsTheColumn :
    made.cfg.legal = true ∧ made.seqX.toNat < made.cfg.columns ∧ made.seqX.toNat ≠ made.cfg.columns - 1 ∧
      (1#16).toNat < made.cfg.columns ∧ (1#16).toNat = made.cfg.columns - 1 := by decide
/-- A waiting sequencer, and one that goes on, at the last half-row and at the one before it. -/
theorem witness_WaitsEndWhenTheFifoIsEmpty :
    pulsing.cfg.legal = true ∧ pulsing.seqD.toNat < pulsing.cfg.half ∧ pulsing.ptFifo ≠ [] ∧ made.ptFifo = [] ∧
      made.seqD.toNat ≠ made.cfg.half - 1 ∧ (1#3).toNat < made.cfg.half ∧ (1#3).toNat = made.cfg.half - 1 := by decide
/-- The planes at the width limit: 3 is the last that is not split, 4 the first that is; 7 is the last plane. -/
theorem witness_PulseProgramsTheTimer :
    made.cfg.legal = true ∧ made.ptFifo = [] ∧ (3#4).toNat < made.cfg.n ∧
      made.cfg.baseTicks * 2 ^ (3#4).toNat ≤ made.cfg.widthLimit ∧ made.cfg.widthLimit < made.cfg.baseTicks * 2 ^ (4#4).toNat ∧
      (3#4).toNat ≠ made.cfg.n - 1 ∧ (7#4).toNat < made.cfg.n ∧ (7#4).toNat = made.cfg.n - 1 := by decide
theorem witness_PlaneIsClockedOutInOrder :
    Inv (atPhase .colClr) ∧ (atPhase .colClr).seqPc = .colClr ∧ (atPhase .colClr).seqX = 0#16 := ⟨inv_colClr, by decide⟩
theorem witness_ShiftRegisterHoldsThePlane :
    Inv (atPhase .colClr) ∧ (atPhase .colClr).seqPc = .colClr ∧ (atPhase .colClr).seqX = 0#16 ∧
      (Panel.mk [0#32, 0#32] [0#32, 0#32]).sr.length = (atPhase .colClr).cfg.columns ∧
      ∃ t, State.seqTurns (3 * (atPhase .colClr).cfg.columns + 1) (atPhase .colClr) = .next t :=
  ⟨inv_colClr, by decide, by decide, by decide, _, rfl⟩
theorem witness_RefreshRunsTheProcedure : Inv swapping ∧ swapping.seqPc = .top ∧ swapping.stopFlag = false :=
  ⟨inv_swapping, by decide⟩
theorem witness_RefreshEventCount : made.cfg.legal = true := by decide
theorem witness_LitTimeIsTheWeightedSum :
    Inv made ∧ made.seqPc = .top ∧ made.stopFlag = false ∧ made.gpio &&& strobeMask = 0#32 ∧
      (Panel.mk [0#32, 0#32] [0#32, 0#32]).sr.length = made.cfg.columns ∧ 1 < made.cfg.half ∧ 1 < made.cfg.columns ∧
      (27 ∈ [made.cfg.pinR1, made.cfg.pinG1, made.cfg.pinB1] ∧ 1 = 1) ∧
      (10 ∈ [made.cfg.pinR2, made.cfg.pinG2, made.cfg.pinB2] ∧ 3 = 1 + made.cfg.half) := ⟨inv_made, by decide⟩

theorem witness_TickCornerCases :
    made.ptEn = false ∧ { made with ptEn := true }.ptRng = 0#32 ∧
      (let s : State := { made with ptEn := true, ptRng := 1#32 }
       s.ptEn = true ∧ s.ptRng ≠ 0#32 ∧ s.ptCur = none ∧ s.ptHold = none ∧ s.ptFifo = []) := by decide
/-- V60: entry 2, range 4; the last lit tick, the first dark one and the last of the period. -/
theorem witness_EntryPlaysItsPeriod :
    (let s : State := { made with ptEn := true, ptRng := 4#32, ptFifo := [2#32] }
     s.ptEn = true ∧ s.ptCur = none ∧ s.ptHold = none ∧ s.ptFifo = [2#32] ∧ (2#32 : Word) ≤ s.ptRng ∧
       ∀ k ∈ [1, 2, 3, 4], 1 ≤ k ∧ k ≤ s.ptRng.toNat) := by decide
/-- The first plane and the last one. -/
theorem witness_ExposureLastsItsTicks :
    Inv (atPhase .pulse) ∧ (atPhase .pulse).seqPc = .pulse ∧ (∃ t, exec .pulse (atPhase .pulse) = .next t) ∧
      Inv { atPhase .pulse with seqP := 7#4 } ∧ ∃ t, exec .pulse { atPhase .pulse with seqP := 7#4 } = .next t :=
  ⟨inv_pulse, by decide, ⟨_, rfl⟩, inv_lastPlane, _, rfl⟩
theorem witness_OnTimeIsTheDuration : tinyCfg.legal = true ∧ 6 < tinyCfg.n ∧ 6 + 1 < tinyCfg.n ∧ 7 < tinyCfg.n := by decide
theorem witness_EmptyFifoMeansDark : Inv made ∧ made.staEmpt = true := ⟨inv_made, by decide⟩

theorem witness_ResetMeetsTheInvariant :
    tinyCfg.legal = true ∧ tiny = State.resetFrom tinyCfg ResetInputs.standard ∧ ResetInputs.standard.mapOk = true ∧
      failed = State.resetFrom tinyCfg { ResetInputs.standard with mapOk := false } := by decide
/-- A tick of a running pulse. -/
theorem witness_EveryStepKeepsTheInvariant :
    Inv { pulsing with agenda := [.pt] } ∧ ∃ t, step { pulsing with agenda := [.pt] } = .next t :=
  ⟨⟨inv_pulsing.legal, inv_pulsing.memOk, inv_pulsing.settingsOk, inv_pulsing.handoffOk, inv_pulsing.runOk,
      inv_pulsing.countersOk, inv_pulsing.timerOk, inv_pulsing.masksOk⟩, _, rfl⟩
theorem witness_NoStepStopsFromTheInvariant : Inv pulsing := inv_pulsing
/-- A step that changes the row address, and one that raises the strobe. -/
theorem witness_LatchAndRowChangeOnlyInTheDark :
    (let s : State := { atPhase .rowSet with seqD := 1#3 }
     Inv s ∧ (afterStep { s with agenda := [.seq] }).litRow ≠ s.litRow) ∧
      Inv (atPhase .strobeSet) ∧ (atPhase .strobeSet).gpio &&& strobeMask = 0#32 ∧
      (afterStep { atPhase .strobeSet with agenda := [.seq] }).gpio &&& strobeMask ≠ 0#32 :=
  ⟨⟨inv_rowSet, by decide⟩, inv_strobeSet, by decide⟩
theorem witness_OtherPinsNeverChange : ∃ t, step { atPhase .colClk with agenda := [.seq] } = .next t := ⟨_, rfl⟩
/-- A pickup. -/
theorem witness_RefreshIsTearFree :
    Inv swapping ∧ (∃ t, step { swapping with agenda := [.seq] } = .next t) ∧
      (afterStep { swapping with agenda := [.seq] }).active ≠ swapping.active ∧ inFrame swapping.cfg swapping.active 31 :=
  ⟨inv_swapping, ⟨_, rfl⟩, by decide, by decide⟩
theorem witness_CommandsNeverTouchTheScan :
    (Instr.setpwmbits 1#4 2#8).format = .cmd ∧ ∃ t, exec (.setpwmbits 1#4 2#8) made = .next t := ⟨rfl, _, rfl⟩
theorem witness_PhasesNeverTouchTheFrames :
    Instr.pulse.format = .seqPhase ∧ ∃ t, exec .pulse (atPhase .pulse) = .next t := ⟨rfl, _, rfl⟩
theorem witness_TerminalStatesStay :
    Inv stopped ∧ stopped.run ≠ .scanning ∧ Inv failed ∧ failed.run ≠ .scanning ∧
      ∃ t, step { failed with agenda := [.cmd], cmd := some 0#64 } = .next t :=
  ⟨inv_stopped, by decide, inv_failed, by decide, _, rfl⟩
theorem witness_ConfigurationIsConstant :
    (∃ t, step { made with agenda := [.t1m] } = .next t) ∧ { tinyCfg with fifoDepth := 9 : Config }.legal = false :=
  ⟨⟨_, rfl⟩, by decide⟩

end Sys2Proof.Tests
end

/-! ## The command decoder and the match and mask table

Both sides are brought to the fields of R95: a mask of the table covers each field wholly or not at all, so what a row asks of a
word is its opcode and the zero fields that the decoder asks for. -/

namespace Sys2Proof

open Machine (ifReservedZero_eq_ok decodeCmd_format)

/-- The seven fields of R95 cover the word. -/
theorem CmdFields.toWord_ofWord (w : CmdWord) : (CmdFields.ofWord w).toWord = w := by
  unfold CmdFields.toWord CmdFields.ofWord
  iterate 6 rw [BitVec.extractLsb'_append_extractLsb'_eq_extractLsb' (by decide)]
  exact BitVec.extractLsb'_eq_self

/-- A word is determined by its fields. -/
theorem CmdFields.ofWord_inj {w w' : CmdWord} : CmdFields.ofWord w = CmdFields.ofWord w' ↔ w = w' := by
  refine ⟨fun h => ?_, congrArg _⟩
  rw [← toWord_ofWord w, h, toWord_ofWord]

/-- The fields of a word, each masked by the same field of `m`. -/
def CmdFields.masked (c m : CmdFields) : CmdFields :=
  ⟨c.op &&& m.op, c.f &&& m.f, c.x &&& m.x, c.y &&& m.y, c.r &&& m.r, c.g &&& m.g, c.b &&& m.b⟩

/-- Masking a word is masking each of its fields. -/
theorem CmdFields.ofWord_and (w m : CmdWord) :
    CmdFields.ofWord (w &&& m) = (CmdFields.ofWord w).masked (CmdFields.ofWord m) := by
  simp [CmdFields.ofWord, CmdFields.masked, BitVec.extractLsb'_and]

/-- R97's test, field by field. -/
theorem CmdRow.selects_iff_fields (r : CmdRow) (w : CmdWord) :
    r.selects w = true ↔
      (CmdFields.ofWord w).masked (CmdFields.ofWord r.mask) = CmdFields.ofWord r.pattern := by
  rw [CmdRow.selects, beq_iff_eq, ← CmdFields.ofWord_inj, CmdFields.ofWord_and]

@[simp] theorem CmdFields.zeroXY_eq_true {c : CmdFields} : c.zeroXY = true ↔ c.x = 0#16 ∧ c.y = 0#16 := by
  simp [CmdFields.zeroXY]

@[simp] theorem CmdFields.zeroXYRG_eq_true {c : CmdFields} :
    c.zeroXYRG = true ↔ c.x = 0#16 ∧ c.y = 0#16 ∧ c.r = 0#8 ∧ c.g = 0#8 := by
  simp [CmdFields.zeroXYRG, and_assoc]

@[simp] theorem CmdFields.zeroButFrame_eq_true {c : CmdFields} :
    c.zeroButFrame = true ↔ c.x = 0#16 ∧ c.y = 0#16 ∧ c.r = 0#8 ∧ c.g = 0#8 ∧ c.b = 0#8 := by
  simp [CmdFields.zeroButFrame, and_assoc]

@[simp] theorem CmdFields.zeroButOp_eq_true {c : CmdFields} :
    c.zeroButOp = true ↔ c.f = 0#4 ∧ c.x = 0#16 ∧ c.y = 0#16 ∧ c.r = 0#8 ∧ c.g = 0#8 ∧ c.b = 0#8 := by
  simp [CmdFields.zeroButOp, and_comm, and_assoc]

/-- What the opcode map of R96 accepts: one case per command, with the fields that R100 wants zero. -/
theorem decodeFields_eq_ok_iff {c : CmdFields} {i : Instr} :
    decodeFields c = .ok i ↔
      (c.op = 0x1#4 ∧ .setpixel c.f c.x c.y c.r c.g c.b = i) ∨
      (c.op = 0x2#4 ∧ c.zeroXY = true ∧ .fill c.f c.r c.g c.b = i) ∨
      (c.op = 0x3#4 ∧ c.zeroButFrame = true ∧ .clear c.f = i) ∨
      (c.op = 0x4#4 ∧ c.zeroXYRG = true ∧ .setpwmbits c.f c.b = i) ∨
      (c.op = 0x5#4 ∧ c.zeroXYRG = true ∧ .setbrightness c.f c.b = i) ∨
      (c.op = 0x6#4 ∧ c.zeroXYRG = true ∧ .setlumcorrect c.f c.b = i) ∨
      (c.op = 0x7#4 ∧ c.zeroButOp = true ∧ .width = i) ∨
      (c.op = 0x8#4 ∧ c.zeroButOp = true ∧ .height = i) ∨
      (c.op = 0x9#4 ∧ c.zeroButOp = true ∧ .createframe = i) ∨
      (c.op = 0xA#4 ∧ c.zeroButFrame = true ∧ .swaponvsync c.f = i) ∨
      (c.op = 0xB#4 ∧ c.zeroButOp = true ∧ .shutdown = i) := by
  simp only [← BitVec.toNat_inj (x := c.op), BitVec.toNat_ofNat]
  unfold decodeFields
  split <;> simp_all [ifReservedZero_eq_ok]

/-- A row of R97's table selects exactly the words that decode to the row's command: its mask keeps the opcode and the fields
that the decoder wants zero, each of them whole. -/
theorem CmdRow.selects_iff_decodes {r : CmdRow} (hr : r ∈ cmdTable) (w : CmdWord) :
    r.selects w = true ↔ ∃ i, decodeCmd w = .ok i ∧ i.mnemonic = r.mnemonic := by
  have keep4 (v : BitVec 4) : v &&& 15#4 = v := BitVec.and_allOnes
  have keep8 (v : BitVec 8) : v &&& 255#8 = v := BitVec.and_allOnes
  have keep16 (v : BitVec 16) : v &&& 65535#16 = v := BitVec.and_allOnes
  rw [CmdRow.selects_iff_fields, decodeCmd]
  generalize CmdFields.ofWord w = c
  simp only [decodeFields_eq_ok_iff, or_and_right, exists_or, and_assoc, exists_and_left, exists_eq_left']
  fin_cases hr
  all_goals simp [CmdFields.masked, CmdFields.ofWord, Instr.mnemonic, keep4, keep8, keep16]

/-- Every command has a row. -/
theorem exists_row_of_format_cmd {i : Instr} (h : i.format = .cmd) : ∃ r ∈ cmdTable, r.mnemonic = i.mnemonic := by
  cases i <;> simp_all [Instr.format, cmdTable, Instr.mnemonic]

/-- No two rows have the same mnemonic. -/
theorem row_eq_of_mnemonic_eq : ∀ r ∈ cmdTable, ∀ r' ∈ cmdTable, r.mnemonic = r'.mnemonic → r = r' := by decide

/-- Settles O4: a row selects the words that decode to its command, so its three parts are that every command has a row, the
selecting row's own command, and that a word decodes to one command, which has one row. -/
theorem acceptedExactlyWhenOneRowMatches : Obligations.AcceptedExactlyWhenOneRowMatches := by
  unfold Obligations.AcceptedExactlyWhenOneRowMatches
  intro w
  refine ⟨fun i hi => ?_, fun r hr hs => (CmdRow.selects_iff_decodes hr w).mp hs, fun r hr r' hr' hs hs' => ?_⟩
  · obtain ⟨r, hr, hm⟩ := exists_row_of_format_cmd (decodeCmd_format hi)
    exact ⟨r, hr, (CmdRow.selects_iff_decodes hr w).mpr ⟨i, hi, hm.symm⟩, hm⟩
  · obtain ⟨i, hi, hm⟩ := (CmdRow.selects_iff_decodes hr w).mp hs
    obtain ⟨j, hj, hm'⟩ := (CmdRow.selects_iff_decodes hr' w).mp hs'
    obtain rfl : i = j := Except.ok.inj (hi.symm.trans hj)
    exact row_eq_of_mnemonic_eq r hr r' hr' (hm.symm.trans hm')

end Sys2Proof

/-! ## The luminance mapping

The table depends on brightness and value through their product only, and is non-decreasing in it; each branch of R122 is, and where
they meet both give the same entry. The range and the unique maximum follow by comparing with the largest products, 25499 and 25500. -/

namespace Sys2Proof.Machine

/-- The linear branch of R122. -/
theorem lutCie_of_le {n b c : Nat} (h : c * b ≤ 2040) :
    lutCie n b c = (2 ^ n - 1) * 10 * (c * b) / (255 * 9023) := if_pos h

/-- The cubic branch of R122. -/
theorem lutCie_of_gt {n b c : Nat} (h : 2040 < c * b) :
    lutCie n b c = (2 ^ n - 1) * (c * b + 4080) ^ 3 / 29580 ^ 3 := if_neg (Nat.not_le.mpr h)

/-- At the last product of the linear branch and the first of the cubic one the floors agree, although the curve steps down between
them (R123). -/
theorem lutCie_branches_meet {n : Nat} (h8 : 8 ≤ n) (h11 : n ≤ 11) :
    (2 ^ n - 1) * 10 * 2040 / (255 * 9023) = (2 ^ n - 1) * (2041 + 4080) ^ 3 / 29580 ^ 3 := by
  interval_cases n <;> norm_num

/-- The table is non-decreasing in the product of value and brightness. -/
theorem lutCie_le_of_product_le {n b c b' c' : Nat} (h8 : 8 ≤ n) (h11 : n ≤ 11) (h : c * b ≤ c' * b') :
    lutCie n b c ≤ lutCie n b' c' := by
  rcases Nat.lt_or_ge 2040 (c * b) with hc | hc
  · rw [lutCie_of_gt hc, lutCie_of_gt (hc.trans_le h)]
    gcongr
  · rw [lutCie_of_le hc]
    rcases Nat.lt_or_ge 2040 (c' * b') with hc' | hc'
    · rw [lutCie_of_gt hc']
      calc (2 ^ n - 1) * 10 * (c * b) / (255 * 9023)
          ≤ (2 ^ n - 1) * 10 * 2040 / (255 * 9023) := by gcongr
        _ = (2 ^ n - 1) * (2041 + 4080) ^ 3 / 29580 ^ 3 := lutCie_branches_meet h8 h11
        _ ≤ (2 ^ n - 1) * (c' * b' + 4080) ^ 3 / 29580 ^ 3 := by gcongr; exact hc'
    · rw [lutCie_of_le hc']
      gcongr

/-- Value 0 gives 0 (R124). -/
theorem lutCie_zero (n b : Nat) : lutCie n b 0 = 0 := by simp [lutCie]

/-- Full brightness and value give the maximum (R124). -/
theorem lutCie_full (n : Nat) : lutCie n 100 255 = 2 ^ n - 1 := by
  rw [lutCie_of_gt (by norm_num)]
  exact Nat.mul_div_cancel _ (by norm_num)

/-- Below the product of full brightness and value the table stays below the maximum (R124). -/
theorem lutCie_lt_of_product_lt {n b c : Nat} (h8 : 8 ≤ n) (h11 : n ≤ 11) (h : c * b < 255 * 100) :
    lutCie n b c < 2 ^ n - 1 := by
  have hpos : 0 < 2 ^ n - 1 := Nat.sub_pos_of_lt (Nat.one_lt_two_pow (by omega))
  calc lutCie n b c
      ≤ lutCie n 1 25499 := lutCie_le_of_product_le h8 h11 (by omega)
    _ = (2 ^ n - 1) * (25499 * 1 + 4080) ^ 3 / 29580 ^ 3 := lutCie_of_gt (by norm_num)
    _ < 2 ^ n - 1 := Nat.div_lt_of_lt_mul (by
      rw [Nat.mul_comm]
      exact Nat.mul_lt_mul_of_pos_right (by norm_num) hpos)

/-- The table fits `N` bits (R124). -/
theorem lutCie_le {n b c : Nat} (h8 : 8 ≤ n) (h11 : n ≤ 11) (hb : b ≤ 100) (hc : c ≤ 255) : lutCie n b c ≤ 2 ^ n - 1 :=
  (lutCie_le_of_product_le h8 h11 (Nat.mul_le_mul hc hb)).trans (lutCie_full n).le

/-- Settles O32: the product grows with the value. -/
theorem tableIsMonotonic : Obligations.TableIsMonotonic := by
  intro n b c h8 h11 _ _ _
  exact lutCie_le_of_product_le h8 h11 (Nat.mul_le_mul_right b c.le_succ)

/-- Settles O33: unless both operands are full, their product is below the full one. -/
theorem tableFitsTheDepth : Obligations.TableFitsTheDepth := by
  intro n b c h8 h11 _ hb hc
  refine ⟨lutCie_le h8 h11 hb hc, ⟨fun hmax => ?_, ?_⟩, lutCie_zero n b⟩
  · by_contra hne
    have hlt : c * b < 255 * 100 := by
      rcases Nat.lt_or_ge b 100 with hb' | hb'
      · exact Nat.mul_lt_mul_of_le_of_lt hc hb' (by norm_num)
      · exact Nat.mul_lt_mul_of_lt_of_le (by omega) hb (by omega)
    exact (lutCie_lt_of_product_lt h8 h11 hlt).ne hmax
  · rintro ⟨rfl, rfl⟩
    exact lutCie_full n

/-- The shift of the linear mode is a multiplication (R125). -/
theorem linMap_eq (n b c : Nat) : linMap n b c = c * b / 100 * 2 ^ (n - 8) := Nat.shiftLeft_eq _ _

/-- The linear mode is non-decreasing in the value (R125). -/
theorem linMap_le_of_le {n b c c' : Nat} (h : c ≤ c') : linMap n b c ≤ linMap n b c' := by
  rw [linMap_eq, linMap_eq]
  gcongr

/-- The linear mode scales a value to at most 255 before it shifts (R125). -/
theorem linMap_le {n b c : Nat} (hb : b ≤ 100) (hc : c ≤ 255) : linMap n b c ≤ 255 * 2 ^ (n - 8) := by
  have hscaled : c * b / 100 ≤ 255 := Nat.div_le_of_le_mul (by nlinarith)
  rw [linMap_eq]
  gcongr

/-- A depth of at least 8 leaves `N - 8` bits below the 8 bits of a value. -/
theorem two_pow_depth {n : Nat} (h8 : 8 ≤ n) : 2 ^ n = 256 * 2 ^ (n - 8) := by
  rw [show 256 = 2 ^ 8 by norm_num, ← pow_add, Nat.add_sub_cancel' h8]

/-- The linear mode fits `N` bits (R125). -/
theorem linMap_lt {n b c : Nat} (h8 : 8 ≤ n) (hb : b ≤ 100) (hc : c ≤ 255) : linMap n b c < 2 ^ n := by
  have hle := linMap_le (n := n) hb hc
  have hpos : 0 < 2 ^ (n - 8) := Nat.two_pow_pos _
  have hn := two_pow_depth h8
  omega

/-- Full brightness and value in the linear mode (R125). -/
theorem linMap_full (n : Nat) : linMap n 100 255 = 255 * 2 ^ (n - 8) := linMap_eq n 100 255

/-- Settles O34: the shift multiplies by `2 ^ (N - 8)`, and `2 ^ N` is 256 times that. -/
theorem linearModeFitsTheDepth : Obligations.LinearModeFitsTheDepth := by
  intro n b c h8 _ _ hb hc
  refine ⟨linMap_eq n b c, linMap_le hb hc, linMap_lt h8 hb hc, ?_, fun c' hc' => linMap_le_of_le hc', linMap_full n,
    fun hn => ?_⟩
  · rw [linMap_eq]
    exact Nat.dvd_mul_left _ _
  · have hbits : 1 < 2 ^ (n - 8) := Nat.one_lt_two_pow (by omega)
    have hdepth := two_pow_depth h8
    rw [linMap_full]
    omega

/-- The mapping fits `N` bits in both modes (R124, R125, R126). -/
theorem mapValue_lt {n : Nat} {st : FrameSettings} (h8 : 8 ≤ n) (h11 : n ≤ 11) (hb : st.brightness.toNat ≤ 100) (c : BitVec 8) :
    mapValue n st c < 2 ^ n := by
  have hc : c.toNat ≤ 255 := Nat.le_of_lt_succ c.isLt
  have hpos : 0 < 2 ^ n := Nat.two_pow_pos n
  rw [mapValue_eq]
  split
  · have := lutCie_le h8 h11 hb hc
    omega
  · exact linMap_lt h8 hb hc

/-! ## The round trip of a pixel

`SETPIXEL` stores bit `p` of a channel's mapped value on that channel's pin in every active plane `p`, and the active planes are those
from `N - k` up, so the stored number is the mapped value without its `N - k` low bits. -/

/-- Bits `j` to `m - 1` of a number make up its remainder modulo `2 ^ m` without that modulo `2 ^ j`. -/
theorem sum_testBit_eq {j m : Nat} (hjm : j ≤ m) (v : Nat) :
    (((List.range m).filter (j ≤ ·)).map fun p => if v.testBit p then 2 ^ p else 0).sum = v % 2 ^ m - v % 2 ^ j := by
  induction m, hjm using Nat.le_induction with
  | base =>
    have hnil : (List.range j).filter (j ≤ ·) = [] := by simp
    simp [hnil]
  | succ m hjm ih =>
    have hle : v % 2 ^ j ≤ v % 2 ^ m := by
      rw [← Nat.mod_mod_of_dvd v (Nat.pow_dvd_pow 2 hjm)]
      exact Nat.mod_le _ _
    have hlast : (List.range (m + 1)).filter (j ≤ ·) = (List.range m).filter (j ≤ ·) ++ [m] := by
      simp [List.range_succ, hjm]
    have hbit : v % 2 ^ (m + 1) = v % 2 ^ m + if v.testBit m then 2 ^ m else 0 := by
      rw [Nat.mod_pow_succ, Nat.testBit_eq_decide_div_mod_eq]
      rcases Nat.mod_two_eq_zero_or_one (v / 2 ^ m) with h | h <;> simp [h]
    rw [hlast, List.map_append, List.sum_append, ih, hbit, List.map_singleton, List.sum_singleton,
      Nat.sub_add_comm hle]

/-- The bits of a number on the active planes (R128). -/
theorem sum_activePlanes_testBit (n : Nat) (k : BitVec 4) (v : Nat) :
    ((activePlanes n k).map fun p => if v.testBit p then 2 ^ p else 0).sum = v % 2 ^ n - v % 2 ^ (n - k.toNat) :=
  sum_testBit_eq (Nat.sub_le n k.toNat) v

/-- The half-panel's three pins, each with the value its channel takes. -/
abbrev channels (pins : Nat × Nat × Nat) (vr vg vb : Nat) : List (Nat × Nat) :=
  [(pins.1, vr), (pins.2.1, vg), (pins.2.2, vb)]

/-- The three pins are different bits of a word. -/
abbrev pinsSeparate (pins : Nat × Nat × Nat) : Prop :=
  (∀ i ∈ [pins.1, pins.2.1, pins.2.2], i < 32) ∧ [pins.1, pins.2.1, pins.2.2].Nodup

/-- The three pins of a half-panel are different pins (R8, R136). -/
theorem halfPins_separate {c : Config} (h : c.legal = true) (y : Nat) : pinsSeparate (halfPins c y) := by
  have hsub : [(halfPins c y).1, (halfPins c y).2.1, (halfPins c y).2.2].Sublist c.colorPins := by
    unfold halfPins
    split
    · exact List.sublist_append_left [c.pinR1, c.pinG1, c.pinB1] _
    · exact List.sublist_append_right [c.pinR1, c.pinG1, c.pinB1] _
  have hpin : ∀ i ∈ [7, 8, 9, 10, 11, 27], i < 32 := by decide
  exact ⟨fun i hi => hpin i (legal_pins h i (hsub.subset hi)), (legal_pins_distinct h).sublist hsub⟩

/-- The mask of a pixel covers its pins (R136). -/
theorem pinsMask_getLsbD {pins : Nat × Nat × Nat} (h : pinsSeparate pins) {i : Nat} (hi : i ∈ [pins.1, pins.2.1, pins.2.2]) :
    (pinsMask pins).getLsbD i = true := by
  obtain ⟨hlt, -⟩ := h
  simp only [List.forall_mem_cons] at hlt
  obtain ⟨h1, h2, h3, -⟩ := hlt
  simp only [pinsMask, BitVec.getLsbD_or, bit_getLsbD, h1, h2, h3]
  simpa [or_assoc] using hi

/-- Each pin takes the plane's bit of its own channel's value (R106, R136). -/
theorem pinsBits_getLsbD {pins : Nat × Nat × Nat} (h : pinsSeparate pins) {vr vg vb : Nat} {ch : Nat × Nat}
    (hch : ch ∈ channels pins vr vg vb) (p : Nat) : (pinsBits pins vr vg vb p).getLsbD ch.1 = ch.2.testBit p := by
  obtain ⟨hlt, hnodup⟩ := h
  simp only [List.forall_mem_cons] at hlt
  obtain ⟨h1, h2, h3, -⟩ := hlt
  simp only [List.nodup_cons, List.mem_cons, List.not_mem_nil, or_false, not_or] at hnodup
  obtain ⟨⟨h12, h13⟩, h23, -⟩ := hnodup
  simp only [pinsBits, BitVec.getLsbD_or, planeBit_getLsbD, h1, h2, h3]
  simp only [channels, List.mem_cons, List.not_mem_nil, or_false] at hch
  rcases hch with rfl | rfl | rfl
  · simp [h12, h13]
  · simp [Ne.symm h12, h23]
  · simp [Ne.symm h13, Ne.symm h23]

/-- An accepted `SETPIXEL` in range makes its patches and answers `OK` (R136). -/
theorem exec_setpixel_inRange {s : State} (hI : Inv s) {f : FrameId} {x y : BitVec 16} (r g b : BitVec 8) (ha : s.accepting)
    (hw : s.writable f) (hx : x.toNat < s.cfg.columns) (hy : y.toNat < s.cfg.totalRows) :
    exec (.setpixel f x y r g b) s =
      .next ({ s with mem := s.mem.patchAll (pixelPatches s.cfg (s.settings f) f x y r g b) }.respond .ok 0#16) := by
  obtain ⟨hidle, hrun⟩ := ha
  have hinside : ¬ (s.cfg.columns ≤ x.toNat ∨ s.cfg.totalRows ≤ y.toNat) := by omega
  have hpatch := (State.patchFrame_eq_ok (cs := pixelPatches s.cfg (s.settings f) f x y r g b)).mpr
    ⟨hI.frame_lt hw.1, rfl⟩
  show execSetpixel f x y r g b s = _
  rw [execSetpixel, State.onPort_accept hidle (State.writeCheck_eq_none.mpr ⟨hrun, hw⟩), if_neg hinside, hpatch]
  rfl

/-- What `SETPIXEL` leaves on a channel's pin in an active plane: that plane's bit of the mapped value (R136). -/
theorem read_pixelPatches_getLsbD {s : State} (hI : Inv s) {f : FrameId} {x y : BitVec 16} (r g b : BitVec 8)
    (hx : x.toNat < s.cfg.columns) {p : Nat} (hp : p ∈ activePlanes s.cfg.n (s.settings f).pwmBits) {ch : Nat × Nat}
    (hch : ch ∈ channels (halfPins s.cfg y.toNat) (mapValue s.cfg.n (s.settings f) r) (mapValue s.cfg.n (s.settings f) g)
      (mapValue s.cfg.n (s.settings f) b)) :
    ((s.mem.patchAll (pixelPatches s.cfg (s.settings f) f x y r g b)).read
      (cellAddr s.cfg f.toNat (y.toNat % s.cfg.half) p x.toNat)).getLsbD ch.1 = ch.2.testBit p := by
  have hpins := halfPins_separate hI.legal y.toNat
  have hmem : ch.1 ∈ [(halfPins s.cfg y.toNat).1, (halfPins s.cfg y.toNat).2.1, (halfPins s.cfg y.toNat).2.2] := by
    simpa [channels] using List.mem_map_of_mem (f := Prod.fst) hch
  rw [Memory.read_patchAll_of_mem hI.memOk.1 _ (pixelPatches_distinct hx) _ (List.mem_map_of_mem hp)]
  simp [pinsMask_getLsbD hpins hmem, pinsBits_getLsbD hpins hch]

/-- The number that `SETPIXEL` stores for a channel: the channel's mapped value with the bits below the active planes cleared
(R128). -/
theorem storedValue_pixelPatches {s : State} (hI : Inv s) {f : FrameId} {x y : BitVec 16} (r g b : BitVec 8)
    (hf : s.created f) (hx : x.toNat < s.cfg.columns) {ch : Nat × Nat}
    (hch : ch ∈ channels (halfPins s.cfg y.toNat) (mapValue s.cfg.n (s.settings f) r) (mapValue s.cfg.n (s.settings f) g)
      (mapValue s.cfg.n (s.settings f) b)) :
    storedValue (s.mem.patchAll (pixelPatches s.cfg (s.settings f) f x y r g b)) s.cfg f.toNat (y.toNat % s.cfg.half) x.toNat
        ch.1 (activePlanes s.cfg.n (s.settings f).pwmBits) =
      ch.2 - ch.2 % 2 ^ (s.cfg.n - (s.settings f).pwmBits.toNat) := by
  obtain ⟨-, -, -, ⟨h8, h11⟩, -⟩ := (legal_iff s.cfg).mp hI.legal
  obtain ⟨-, hbright, -, -⟩ := hI.settingsOk f hf
  have hlt : ch.2 < 2 ^ s.cfg.n := by
    have hmap := mapValue_lt h8 h11 hbright
    simp only [channels, List.mem_cons, List.not_mem_nil, or_false] at hch
    rcases hch with rfl | rfl | rfl <;> exact hmap _
  calc storedValue _ s.cfg f.toNat (y.toNat % s.cfg.half) x.toNat ch.1 (activePlanes s.cfg.n (s.settings f).pwmBits)
      = ((activePlanes s.cfg.n (s.settings f).pwmBits).map fun p => if ch.2.testBit p then 2 ^ p else 0).sum :=
        congrArg List.sum (List.map_congr_left fun p hp => by rw [read_pixelPatches_getLsbD hI r g b hx hp hch])
    _ = ch.2 % 2 ^ s.cfg.n - ch.2 % 2 ^ (s.cfg.n - (s.settings f).pwmBits.toNat) := sum_activePlanes_testBit _ _ _
    _ = ch.2 - ch.2 % 2 ^ (s.cfg.n - (s.settings f).pwmBits.toNat) := by rw [Nat.mod_eq_of_lt hlt]

/-- Settles O13: the stored number is known by `storedValue_pixelPatches`, and what it falls short by is a remainder. That the inputs
up to 9 all map to 0 is monotonicity. -/
theorem storedBitsGiveTheMappedValue : Obligations.StoredBitsGiveTheMappedValue := by
  refine ⟨fun c hc => ?_, ?_⟩
  · have hle : lutCie 8 100 c ≤ lutCie 8 100 9 :=
      lutCie_le_of_product_le (by norm_num) (by norm_num) (Nat.mul_le_mul_right 100 hc)
    exact Nat.le_zero.mp (hle.trans_eq (by norm_num [lutCie]))
  · intro s f x y r g b m pr pg pb hI ha hw hx hy hm hpins
    obtain rfl : m = mapValue s.cfg.n (s.settings f) := funext fun c => (hm c).trans (mapValue_eq _ _ c).symm
    obtain ⟨rfl, rfl, rfl⟩ : pr = (halfPins s.cfg y.toNat).1 ∧ pg = (halfPins s.cfg y.toNat).2.1 ∧
        pb = (halfPins s.cfg y.toNat).2.2 := by
      have : (pr, pg, pb) = halfPins s.cfg y.toNat := hpins
      simp [← this]
    refine ⟨_, exec_setpixel_inRange hI r g b ha hw hx hy, fun ch hch => ?_⟩
    have hstored := storedValue_pixelPatches hI r g b hw.1 hx hch
    have hrem : ch.2 % 2 ^ (s.cfg.n - (s.settings f).pwmBits.toNat) < 2 ^ (s.cfg.n - (s.settings f).pwmBits.toNat) :=
      Nat.mod_lt _ (Nat.two_pow_pos _)
    refine ⟨hstored, ?_⟩
    rw [State.respond_mem, hstored, Nat.sub_sub_self (Nat.mod_le _ _)]
    exact hrem

end Sys2Proof.Machine

/-! ## Drawing commands as read-modify-writes of frame memory

An accepted `SETPIXEL` or `FILL` patches words of its frame and answers `OK`. Executed twice, a patch writes the same word. And the
patches of `SETPIXEL` over the whole panel cut each patch of `FILL` into its two half-panels, whatever their order: each bit of a
word takes the value of the one `FILL` patch of that word, or is kept. -/

namespace Sys2Proof.Machine

/-- The state after a drawing command that made the patches `cs`: the words patched, and the response `OK`. -/
def State.drawn (s : State) (cs : List CellPatch) : State := { s with mem := s.mem.patchAll cs }.respond .ok 0#16

theorem Memory.patchAll_append (m : Memory) (cs ds : List CellPatch) :
    m.patchAll (cs ++ ds) = (m.patchAll cs).patchAll ds := List.foldl_append

@[simp] theorem State.drawn_drawn (s : State) (cs ds : List CellPatch) : (s.drawn cs).drawn ds = s.drawn (cs ++ ds) := by
  simp [State.drawn, State.respond, Memory.patchAll_append]

/-- A command whose checks pass and that patches a created frame gives the drawn state. -/
theorem State.onPort_draw {s : State} (hI : Inv s) {f : FrameId} (ha : s.accepting) (hw : s.writable f) (cs : List CellPatch) :
    s.onPort (s.writeCheck f) ((s.patchFrame f cs).map (·.respond .ok 0#16)) = .next (s.drawn cs) := by
  obtain ⟨hidle, hrun⟩ := ha
  rw [State.onPort_accept hidle (State.writeCheck_eq_none.mpr ⟨hrun, hw⟩),
    State.patchFrame_eq_ok.mpr ⟨hI.frame_lt hw.1, rfl⟩]
  rfl

/-- Drawing words of colour bits in a created frame keeps the invariant: it writes frame memory and the response only. -/
theorem Inv.drawn {s : State} (hI : Inv s) {f : FrameId} (hf : s.created f) {cs : List CellPatch}
    (hcs : ∀ c ∈ cs, inFrame s.cfg f c.addr ∧ c.bits &&& ~~~colorMask = 0#32) : Inv (s.drawn cs) where
  legal := hI.legal
  memOk := State.memOk_patchAll hI.memOk f cs (hI.frame_lt hf) hcs
  settingsOk := hI.settingsOk
  handoffOk := hI.handoffOk
  runOk := hI.runOk
  countersOk := hI.countersOk
  timerOk := hI.timerOk
  masksOk := hI.masksOk

/-- What `SETPIXEL` at any coordinates does to frame memory: its patches in range, none out of range (R136, R243). -/
def pointPatches (c : Config) (st : FrameSettings) (f : FrameId) (x y : BitVec 16) (r g b : BitVec 8) : List CellPatch :=
  if x.toNat < c.columns ∧ y.toNat < c.totalRows then pixelPatches c st f x y r g b else []

theorem mem_pointPatches {c : Config} {st : FrameSettings} {f : FrameId} {x y : BitVec 16} {r g b : BitVec 8} {q : CellPatch} :
    q ∈ pointPatches c st f x y r g b ↔
      (x.toNat < c.columns ∧ y.toNat < c.totalRows) ∧ q ∈ pixelPatches c st f x y r g b := by
  unfold pointPatches
  split <;> simp [*]

theorem pointPatches_distinct {c : Config} {st : FrameSettings} {f : FrameId} {x y : BitVec 16} {r g b : BitVec 8} :
    (pointPatches c st f x y r g b).Pairwise (fun a b => a.addr ≠ b.addr) := by
  unfold pointPatches
  split
  next h => exact pixelPatches_distinct h.1
  next => exact .nil

/-- An accepted `SETPIXEL`, in range or not (R136, R243). -/
theorem exec_setpixel {s : State} (hI : Inv s) {f : FrameId} (x y : BitVec 16) (r g b : BitVec 8) (ha : s.accepting)
    (hw : s.writable f) :
    exec (.setpixel f x y r g b) s = .next (s.drawn (pointPatches s.cfg (s.settings f) f x y r g b)) := by
  unfold pointPatches
  split
  next h => exact exec_setpixel_inRange hI r g b ha hw h.1 h.2
  next h =>
    have houtside : s.cfg.columns ≤ x.toNat ∨ s.cfg.totalRows ≤ y.toNat := by omega
    show execSetpixel f x y r g b s = _
    rw [execSetpixel, State.onPort_accept ha.1 (State.writeCheck_eq_none.mpr ⟨ha.2, hw⟩), if_pos houtside]
    rfl

theorem Inv.drawn_pointPatches {s : State} (hI : Inv s) {f : FrameId} (hf : s.created f) (x y : BitVec 16) (r g b : BitVec 8) :
    Inv (s.drawn (pointPatches s.cfg (s.settings f) f x y r g b)) :=
  hI.drawn hf fun c hc =>
    have ⟨⟨hx, _⟩, hc⟩ := mem_pointPatches.mp hc
    pixelPatches_ok hI.legal hx c hc

/-- An accepted `FILL` (R140). -/
theorem exec_fill {s : State} (hI : Inv s) {f : FrameId} (r g b : BitVec 8) (ha : s.accepting) (hw : s.writable f) :
    exec (.fill f r g b) s = .next (s.drawn (fillPatches s.cfg (s.settings f) f r g b)) :=
  State.onPort_draw hI ha hw _

/-! ### Idempotence -/

/-- The new word depends on the old only in the bits it keeps (R138). -/
theorem merge_merge (w mask bits : Word) :
    (((w &&& ~~~mask) ||| bits) &&& ~~~mask) ||| bits = (w &&& ~~~mask) ||| bits := by
  ext i hi
  simp only [BitVec.getElem_or, BitVec.getElem_and, BitVec.getElem_not]
  grind

/-- Read-modify-writes of distinct words, done twice, do what they do once (R138). -/
theorem Memory.patchAll_twice {m : Memory} (hm : m.wf) {cs : List CellPatch}
    (hd : cs.Pairwise (fun c d => c.addr ≠ d.addr)) : (m.patchAll cs).patchAll cs = m.patchAll cs := by
  have hm' := Memory.wf_patchAll hm cs
  refine Memory.ext_of_read (Memory.wf_patchAll hm' cs) hm' fun a => ?_
  rcases Memory.read_patchAll hm' cs hd a with ⟨c, hc, rfl, htwice⟩ | ⟨-, htwice⟩
  · rw [htwice, Memory.read_patchAll_of_mem hm cs hd c hc, merge_merge]
  · exact htwice

/-- Settles O14: a blocked or a rejecting port answers the same again; an accepted `SETPIXEL` repeats patches of distinct words. -/
theorem setpixelIsIdempotent : Obligations.SetpixelIsIdempotent := by
  intro s f x y r g b hI
  by_cases hidle : s.host = .idle
  · rcases hcheck : s.writeCheck f with _ | st
    · obtain ⟨hrun, hw⟩ := State.writeCheck_eq_none.mp hcheck
      refine ⟨_, exec_setpixel hI x y r g b ⟨hidle, hrun⟩ hw, ?_⟩
      rw [exec_setpixel (hI.drawn_pointPatches hw.1 x y r g b) x y r g b ⟨hidle, hrun⟩ hw]
      show Host.Outcome.next ((s.drawn _).drawn (pointPatches s.cfg (s.settings f) f x y r g b)) = _
      rw [State.drawn_drawn, State.drawn, Memory.patchAll_append,
        Memory.patchAll_twice hI.memOk.1 pointPatches_distinct, State.drawn]
    · exact ⟨s.respond st 0#16, State.onPort_reject hidle hcheck, State.onPort_reject (s := s.respond st 0#16) hidle hcheck⟩
  · exact ⟨s, State.onPort_blocked hidle, State.onPort_blocked hidle⟩

/-! ### Patches that cut others into parts -/

/-- A bit of a word after a read-modify-write that gives the bit the value `v` where it covers it: `v` there, else the old bit. -/
theorem getLsbD_merge {w mask bits : Word} {i : Nat} {v : Bool} (h : bits.getLsbD i = (mask.getLsbD i && v)) :
    ((w &&& ~~~mask) ||| bits).getLsbD i = if mask.getLsbD i = true then v else w.getLsbD i := by
  rw [BitVec.getLsbD_or, BitVec.getLsbD_and, BitVec.getLsbD_not, h]
  by_cases hi : i < 32
  · cases mask.getLsbD i <;> simp [hi]
  · simp [BitVec.getLsbD_of_ge _ i (Nat.le_of_not_lt hi)]

/-- A bit of a word after read-modify-writes that may repeat the word, where all that cover the bit give it the value `v`: `v` if
one covers it, else the old bit. -/
theorem Memory.read_patchAll_getLsbD {m : Memory} (hm : m.wf) {cs : List CellPatch} {a i : Nat} {v : Bool}
    (hv : ∀ c ∈ cs, c.addr = a → c.bits.getLsbD i = (c.mask.getLsbD i && v)) :
    ((m.patchAll cs).read a).getLsbD i =
      if ∃ c ∈ cs, c.addr = a ∧ c.mask.getLsbD i = true then v else (m.read a).getLsbD i := by
  induction cs generalizing m with
  | nil => simp
  | cons c cs ih =>
    rw [Memory.patchAll_cons, ih (Memory.wf_patch hm c) fun d hd => hv d (List.mem_cons_of_mem c hd), Memory.read_patch hm]
    by_cases hc : c.addr = a
    · rw [if_pos hc.symm, getLsbD_merge (hv c List.mem_cons_self hc)]
      by_cases hmask : c.mask.getLsbD i = true
      · simp only [hmask, hc, List.exists_mem_cons_iff, and_self, true_or, if_true, ite_self]
      · simp only [hmask, hc, List.exists_mem_cons_iff, and_false, false_or, if_false, Bool.false_eq_true]
    · simp [hc, Ne.symm hc]

/-- The patches `cs` cut the patches `ds` into parts: they name words of `ds`, with the bits that `ds` gives them, and together they
cover of each word what its patch in `ds` covers. Parts may overlap and repeat. -/
structure PartsOf (cs ds : List CellPatch) : Prop where
  addr : ∀ c ∈ cs, ∃ d ∈ ds, c.addr = d.addr
  bits : ∀ c ∈ cs, ∀ d ∈ ds, c.addr = d.addr → c.bits = c.mask &&& d.bits
  cover : ∀ d ∈ ds, ∀ i, d.mask.getLsbD i = true ↔ ∃ c ∈ cs, c.addr = d.addr ∧ c.mask.getLsbD i = true

/-- Parts, in any order, make the memory that the whole patches make. -/
theorem Memory.patchAll_eq_of_partsOf {m : Memory} (hm : m.wf) {cs ds : List CellPatch} (h : PartsOf cs ds)
    (hd : ds.Pairwise (fun c d => c.addr ≠ d.addr)) (hin : ∀ d ∈ ds, d.mask &&& d.bits = d.bits) :
    m.patchAll cs = m.patchAll ds := by
  refine Memory.ext_of_read (Memory.wf_patchAll hm cs) (Memory.wf_patchAll hm ds) fun a => ?_
  rcases Memory.read_patchAll hm ds hd a with ⟨d, hmem, rfl, hread⟩ | ⟨hno, hread⟩
  · rw [hread]
    apply BitVec.eq_of_getLsbD_eq
    intro i _
    have hwhole : d.bits.getLsbD i = (d.mask.getLsbD i && d.bits.getLsbD i) := by
      rw [← BitVec.getLsbD_and, hin d hmem]
    have hparts : ∀ c ∈ cs, c.addr = d.addr → c.bits.getLsbD i = (c.mask.getLsbD i && d.bits.getLsbD i) := fun c hc ha => by
      rw [h.bits c hc d hmem ha, BitVec.getLsbD_and]
    rw [getLsbD_merge hwhole, Memory.read_patchAll_getLsbD hm hparts]
    exact if_congr (h.cover d hmem i).symm rfl rfl
  · rw [hread, Memory.read_patchAll_of_not_mem hm cs a]
    intro c hc ha
    obtain ⟨d, hmem, hcd⟩ := h.addr c hc
    exact hno d hmem (hcd ▸ ha)

/-! ### The two half-panels -/

/-- The pins of the upper half-panel (R8, R136). -/
abbrev upperPins (c : Config) : Nat × Nat × Nat := (c.pinR1, c.pinG1, c.pinB1)

/-- The pins of the lower half-panel (R8, R136). -/
abbrev lowerPins (c : Config) : Nat × Nat × Nat := (c.pinR2, c.pinG2, c.pinB2)

theorem halfPins_of_lt {c : Config} {y : Nat} (h : y < c.half) : halfPins c y = upperPins c := if_pos h

theorem halfPins_of_le {c : Config} {y : Nat} (h : c.half ≤ y) : halfPins c y = lowerPins c := if_neg (Nat.not_lt.mpr h)

theorem halfPins_cases (c : Config) (y : Nat) : halfPins c y = upperPins c ∨ halfPins c y = lowerPins c := ite_eq_or_eq _ _ _

/-- The two half-panels make up the colour mask: the six colour pins are those of R14 in another order (R8). -/
theorem pinsMask_or_pinsMask {c : Config} (h : c.legal = true) :
    pinsMask (upperPins c) ||| pinsMask (lowerPins c) = colorMask := by
  have hperm : c.colorPins.Perm [7, 8, 9, 10, 11, 27] := ((legal_iff c).mp h).2.2.2.2.2.2.2.2
  calc pinsMask (upperPins c) ||| pinsMask (lowerPins c)
      = (c.colorPins.map bit).foldr (· ||| ·) 0#32 := by simp [pinsMask, Config.colorPins, BitVec.or_assoc]
    _ = ([7, 8, 9, 10, 11, 27].map bit).foldr (· ||| ·) 0#32 := (hperm.map bit).foldr_op_eq
    _ = colorMask := by decide

/-- A bit that the mask of three pins covers is one of these pins (R136). -/
theorem mem_of_pinsMask_getLsbD {pins : Nat × Nat × Nat} {i : Nat} (h : (pinsMask pins).getLsbD i = true) :
    i ∈ [pins.1, pins.2.1, pins.2.2] := by
  simp only [pinsMask, BitVec.getLsbD_or, BitVec.getLsbD_twoPow, Bool.or_eq_true, Bool.and_eq_true, decide_eq_true_eq] at h
  simp only [List.mem_cons, List.not_mem_nil, or_false]
  omega

/-- The two half-panels have no pin in common (R8). -/
theorem pinsMask_and_pinsMask {c : Config} (h : c.legal = true) :
    pinsMask (upperPins c) &&& pinsMask (lowerPins c) = 0#32 := by
  have hdisjoint : List.Disjoint [c.pinR1, c.pinG1, c.pinB1] [c.pinR2, c.pinG2, c.pinB2] :=
    List.disjoint_of_nodup_append (legal_pins_distinct h)
  apply BitVec.eq_of_getLsbD_eq
  intro i _
  rw [BitVec.getLsbD_and, BitVec.getLsbD_zero, Bool.and_eq_false_imp, Bool.eq_false_iff]
  exact fun hu hl => hdisjoint (mem_of_pinsMask_getLsbD hu) (mem_of_pinsMask_getLsbD hl)

/-- Masks that cover two words, together, cover both words together. -/
theorem and_or_of_covered {m n v w : Word} (hv : m &&& v = v) (hw : n &&& w = w) : (m ||| n) &&& (v ||| w) = v ||| w := by
  rw [← hv, ← hw]
  ext i hi
  simp only [BitVec.getElem_or, BitVec.getElem_and]
  grind

/-- A value spread to a pin is that pin's bit or nothing (R106). -/
theorem bit_and_planeBit (v p pin : Nat) : bit pin &&& planeBit v p pin = planeBit v p pin := by
  unfold planeBit
  split <;> simp

/-- What three pins take lies on these pins (R136). -/
theorem pinsMask_and_pinsBits (pins : Nat × Nat × Nat) (vr vg vb p : Nat) :
    pinsMask pins &&& pinsBits pins vr vg vb p = pinsBits pins vr vg vb p :=
  and_or_of_covered (and_or_of_covered (bit_and_planeBit _ _ _) (bit_and_planeBit _ _ _)) (bit_and_planeBit _ _ _)

/-- What `FILL` gives a word lies within the colour mask (R140). -/
theorem colorMask_and_fillBits {c : Config} (h : c.legal = true) (vr vg vb p : Nat) :
    colorMask &&& fillBits c vr vg vb p = fillBits c vr vg vb p := by
  rw [← pinsMask_or_pinsMask h]
  exact and_or_of_covered (pinsMask_and_pinsBits _ _ _ _ _) (pinsMask_and_pinsBits _ _ _ _ _)

/-- The pins of three take nothing of what other pins are given. -/
theorem pinsMask_and_pinsBits_of_disjoint {pins pins' : Nat × Nat × Nat} (h : pinsMask pins &&& pinsMask pins' = 0#32)
    (vr vg vb p : Nat) : pinsMask pins &&& pinsBits pins' vr vg vb p = 0#32 := by
  rw [← pinsMask_and_pinsBits pins', ← BitVec.and_assoc, h, BitVec.zero_and]

/-- What `SETPIXEL` gives its half-panel is the half-panel's part of what `FILL` gives the word (R136, R140). -/
theorem pinsBits_halfPins {c : Config} (h : c.legal = true) (y vr vg vb p : Nat) :
    pinsBits (halfPins c y) vr vg vb p = pinsMask (halfPins c y) &&& fillBits c vr vg vb p := by
  have hul := pinsMask_and_pinsMask h
  have hlu : pinsMask (lowerPins c) &&& pinsMask (upperPins c) = 0#32 := (BitVec.and_comm _ _).trans hul
  rw [fillBits, BitVec.and_or_distrib_left]
  rcases halfPins_cases c y with hy | hy
  · rw [hy, pinsMask_and_pinsBits, pinsMask_and_pinsBits_of_disjoint hul, BitVec.or_zero]
  · rw [hy, pinsMask_and_pinsBits, pinsMask_and_pinsBits_of_disjoint hlu, BitVec.zero_or]

/-- A colour bit of half-row `d` belongs to one of the two rows of the panel stored there, `d` and `d + HALF` (R136). -/
theorem colorMask_getLsbD_iff {c : Config} (h : c.legal = true) {d : Nat} (hd : d < c.half) (i : Nat) :
    colorMask.getLsbD i = true ↔ ∃ y < c.totalRows, y % c.half = d ∧ (pinsMask (halfPins c y)).getLsbD i = true := by
  rw [← pinsMask_or_pinsMask h, BitVec.getLsbD_or, Bool.or_eq_true]
  have hrows := legal_totalRows h
  constructor
  · rintro (hu | hl)
    · exact ⟨d, by omega, Nat.mod_eq_of_lt hd, by rwa [halfPins_of_lt hd]⟩
    · exact ⟨d + c.half, by omega, by rw [Nat.add_mod_right, Nat.mod_eq_of_lt hd],
        by rwa [halfPins_of_le (Nat.le_add_left _ _)]⟩
  · rintro ⟨y, -, -, hy⟩
    rcases halfPins_cases c y with hp | hp
    · exact .inl (hp ▸ hy)
    · exact .inr (hp ▸ hy)

/-! ### `FILL` and `SETPIXEL` everywhere -/

/-- A patch of `FILL` (R140). -/
theorem mem_fillPatches {c : Config} {st : FrameSettings} {f : FrameId} {r g b : BitVec 8} {q : CellPatch} :
    q ∈ fillPatches c st f r g b ↔ ∃ d p x, (d < c.half ∧ p ∈ activePlanes c.n st.pwmBits ∧ x < c.columns) ∧
      q = ⟨cellAddr c f.toNat d p x, colorMask, fillBits c (mapValue c.n st r) (mapValue c.n st g) (mapValue c.n st b) p⟩ := by
  simp only [fillPatches, List.mem_map, Prod.exists, mem_frameCells, eq_comm]

/-- A patch of `SETPIXEL` (R136). -/
theorem mem_pixelPatches {c : Config} {st : FrameSettings} {f : FrameId} {x y : BitVec 16} {r g b : BitVec 8} {q : CellPatch} :
    q ∈ pixelPatches c st f x y r g b ↔ ∃ p ∈ activePlanes c.n st.pwmBits,
      q = ⟨cellAddr c f.toNat (y.toNat % c.half) p x.toNat, pinsMask (halfPins c y.toNat),
        pinsBits (halfPins c y.toNat) (mapValue c.n st r) (mapValue c.n st g) (mapValue c.n st b) p⟩ := by
  simp only [pixelPatches, List.mem_map, eq_comm]

/-- A column of the panel is the value of an `x` field (R6, R95). -/
theorem exists_column_word {c : Config} (h : c.legal = true) {x : Nat} (hx : x < c.columns) : ∃ w : BitVec 16, w.toNat = x := by
  obtain ⟨-, ⟨-, hcolumns⟩, -⟩ := (legal_iff c).mp h
  exact ⟨BitVec.ofNat 16 x, by rw [BitVec.toNat_ofNat, Nat.mod_eq_of_lt]; omega⟩

/-- A row of the panel is the value of a `y` field (R6, R95). -/
theorem exists_row_word {c : Config} (h : c.legal = true) {y : Nat} (hy : y < c.totalRows) : ∃ w : BitVec 16, w.toNat = y := by
  have hhalf := legal_half h
  have hrows := legal_totalRows h
  exact ⟨BitVec.ofNat 16 y, by rw [BitVec.toNat_ofNat, Nat.mod_eq_of_lt]; omega⟩

/-- The list names every coordinate of the panel. -/
abbrev coversPanel (c : Config) (l : List (BitVec 16 × BitVec 16)) : Prop :=
  ∀ x y : BitVec 16, x.toNat < c.columns → y.toNat < c.totalRows → (x, y) ∈ l

/-- The patches of `SETPIXEL` at a list of coordinates. -/
def listPatches (c : Config) (st : FrameSettings) (f : FrameId) (r g b : BitVec 8) (l : List (BitVec 16 × BitVec 16)) :
    List CellPatch :=
  l.flatMap fun xy => pointPatches c st f xy.1 xy.2 r g b

theorem mem_listPatches {c : Config} {st : FrameSettings} {f : FrameId} {r g b : BitVec 8} {l : List (BitVec 16 × BitVec 16)}
    {q : CellPatch} :
    q ∈ listPatches c st f r g b l ↔
      ∃ x y, (x, y) ∈ l ∧ (x.toNat < c.columns ∧ y.toNat < c.totalRows) ∧ q ∈ pixelPatches c st f x y r g b := by
  simp only [listPatches, List.mem_flatMap, Prod.exists, mem_pointPatches]

/-- `SETPIXEL` at every coordinate cuts the patches of `FILL` into parts (R141). -/
theorem listPatches_partsOf {c : Config} (h : c.legal = true) (st : FrameSettings) (f : FrameId) (r g b : BitVec 8)
    {l : List (BitVec 16 × BitVec 16)} (hl : coversPanel c l) :
    PartsOf (listPatches c st f r g b l) (fillPatches c st f r g b) where
  addr q hq := by
    obtain ⟨x, y, -, ⟨hx, -⟩, hq⟩ := mem_listPatches.mp hq
    obtain ⟨p, hp, rfl⟩ := mem_pixelPatches.mp hq
    exact ⟨_, mem_fillPatches.mpr ⟨_, p, _, ⟨Nat.mod_lt _ (legal_half h).1, hp, hx⟩, rfl⟩, rfl⟩
  bits q hq w hw ha := by
    obtain ⟨x, y, -, ⟨hx, -⟩, hq⟩ := mem_listPatches.mp hq
    obtain ⟨p, hp, rfl⟩ := mem_pixelPatches.mp hq
    obtain ⟨d, p', x', ⟨-, hp', hx'⟩, rfl⟩ := mem_fillPatches.mp hw
    obtain ⟨-, rfl, -⟩ := cellAddr_inj (mem_activePlanes.mp hp).2 hx (mem_activePlanes.mp hp').2 hx' ha
    exact pinsBits_halfPins h _ _ _ _ _
  cover w hw i := by
    obtain ⟨d, p, x, ⟨hd, hp, hx⟩, rfl⟩ := mem_fillPatches.mp hw
    rw [colorMask_getLsbD_iff h hd]
    constructor
    · rintro ⟨y, hy, rfl, hi⟩
      obtain ⟨x, rfl⟩ := exists_column_word h hx
      obtain ⟨y, rfl⟩ := exists_row_word h hy
      exact ⟨_, mem_listPatches.mpr ⟨x, y, hl x y hx hy, ⟨hx, hy⟩, mem_pixelPatches.mpr ⟨p, hp, rfl⟩⟩, rfl, hi⟩
    · rintro ⟨q, hq, ha, hi⟩
      obtain ⟨x', y, -, ⟨hx', hy⟩, hq⟩ := mem_listPatches.mp hq
      obtain ⟨p', hp', rfl⟩ := mem_pixelPatches.mp hq
      obtain ⟨hrow, -, -⟩ := cellAddr_inj (mem_activePlanes.mp hp').2 hx' (mem_activePlanes.mp hp).2 hx ha
      exact ⟨y.toNat, hy, hrow, hi⟩

/-- Accepted `SETPIXEL` commands one after the other, from a state that one of them left. -/
theorem execAll_setpixel_drawn {s : State} {f : FrameId} (r g b : BitVec 8) (ha : s.accepting) (hw : s.writable f)
    (l : List (BitVec 16 × BitVec 16)) (cs : List CellPatch) (hI : Inv (s.drawn cs)) :
    execAll (l.map fun xy => .setpixel f xy.1 xy.2 r g b) (s.drawn cs) =
      .next (s.drawn (cs ++ listPatches s.cfg (s.settings f) f r g b l)) := by
  induction l generalizing cs with
  | nil => simp [execAll, listPatches]
  | cons xy l ih =>
    have hexec : exec (.setpixel f xy.1 xy.2 r g b) (s.drawn cs) =
        .next (s.drawn (cs ++ pointPatches s.cfg (s.settings f) f xy.1 xy.2 r g b)) :=
      (exec_setpixel hI xy.1 xy.2 r g b ha hw).trans (congrArg _ (State.drawn_drawn _ _ _))
    have hI' : Inv (s.drawn (cs ++ pointPatches s.cfg (s.settings f) f xy.1 xy.2 r g b)) :=
      State.drawn_drawn s cs _ ▸ hI.drawn_pointPatches hw.1 xy.1 xy.2 r g b
    rw [List.map_cons, execAll, hexec]
    simpa [listPatches] using ih _ hI'

/-- Accepted `SETPIXEL` commands one after the other make their patches and answer `OK`; at least one is needed for the answer. -/
theorem execAll_setpixel {s : State} (hI : Inv s) {f : FrameId} (r g b : BitVec 8) (ha : s.accepting) (hw : s.writable f)
    {l : List (BitVec 16 × BitVec 16)} (hne : l ≠ []) :
    execAll (l.map fun xy => .setpixel f xy.1 xy.2 r g b) s =
      .next (s.drawn (listPatches s.cfg (s.settings f) f r g b l)) := by
  obtain ⟨xy, l, rfl⟩ := List.exists_cons_of_ne_nil hne
  rw [List.map_cons, execAll, exec_setpixel hI _ _ r g b ha hw]
  exact execAll_setpixel_drawn r g b ha hw l _ (hI.drawn_pointPatches hw.1 xy.1 xy.2 r g b)

/-- Settles O16: both sides patch frame memory and answer `OK`, and the patches of the pixels are the parts of those of `FILL`. -/
theorem fillIsSetpixelEverywhere : Obligations.FillIsSetpixelEverywhere := by
  intro s f r g b l hI ha hw hl
  have hrows : 0 < s.cfg.totalRows := by
    have := legal_half hI.legal
    have := legal_totalRows hI.legal
    omega
  have hne : l ≠ [] := List.ne_nil_of_mem (hl 0#16 0#16 (((legal_iff _).mp hI.legal).2.1.1) hrows)
  have hmem : s.mem.patchAll (listPatches s.cfg (s.settings f) f r g b l) =
      s.mem.patchAll (fillPatches s.cfg (s.settings f) f r g b) := by
    refine Memory.patchAll_eq_of_partsOf hI.memOk.1 (listPatches_partsOf hI.legal _ f r g b hl) fillPatches_distinct fun d hd => ?_
    obtain ⟨_, _, _, -, rfl⟩ := mem_fillPatches.mp hd
    exact colorMask_and_fillBits hI.legal _ _ _ _
  refine ⟨_, exec_fill hI r g b ha hw, ?_⟩
  rw [execAll_setpixel hI r g b ha hw hne, State.drawn, hmem, State.drawn]

end Sys2Proof.Machine

/-! ## The scan phases and the pins

Each phase that makes one write to the pins, as its next state. Then, for every phase and every step, the writes it makes: they stand
on the trace, they account for the levels of the pins, and their masks lie within the pins of the phase. What those pins do not cover
is kept, so a pin changes only in a phase that owns it. -/

namespace Sys2Proof.Machine

/-! ### The phases that make one write -/

/-- `ROW_CLR` clears the row-address lines that the half-row has at 0 (R165). -/
theorem exec_rowClr (s : State) : exec .rowClr s = .next ((s.gpioClr (~~~rowAddr s.seqD &&& rowMask)).goto .rowSet) := rfl

/-- `ROW_SET` sets those that it has at 1, and selects the first active plane and column 0 (R166). -/
theorem exec_rowSet (s : State) :
    exec .rowSet s = .next ({ s.gpioSet (rowAddr s.seqD) with
      seqP := BitVec.ofNat 4 (s.cfg.n - (s.settings s.active).pwmBits.toNat), seqX := 0#16 }.goto .colClr) := rfl

theorem exec_colClr (s : State) : exec .colClr s = .next ((s.gpioClr colorClkMask).goto .colData) := rfl

theorem exec_planeClr (s : State) : exec .planeClr s = .next ((s.gpioClr colorClkMask).goto .planeWait) := rfl

theorem exec_strobeSet (s : State) : exec .strobeSet s = .next ((s.gpioSet strobeMask).goto .strobeClr) := rfl

theorem exec_strobeClr (s : State) : exec .strobeClr s = .next ((s.gpioClr strobeMask).goto .pulse) := rfl

/-- `COL_CLK` at the last column (R170). -/
theorem exec_colClk_last {s : State} (h : s.seqX.toNat = s.cfg.columns - 1) :
    exec .colClk s = .next ((s.gpioSet clkMask).goto .planeClr) := if_pos h

/-- `COL_CLK` before the last column (R170). -/
theorem exec_colClk_step {s : State} (h : s.seqX.toNat ≠ s.cfg.columns - 1) :
    exec .colClk s = .next ({ s.gpioSet clkMask with seqX := s.seqX + 1#16 }.goto .colClr) := if_neg h

/-- Settles O36: the four writes with the masks of R14. -/
theorem fixedMaskPhases : Obligations.FixedMaskPhases := by
  intro s
  obtain ⟨hstrobe, -, -, -, -, hcolorClk, -⟩ := masks_hex
  rw [exec_colClr, exec_planeClr, exec_strobeSet, exec_strobeClr, hstrobe, hcolorClk]
  exact ⟨rfl, rfl, rfl, rfl⟩

/-- Settles O38: by whether the column is the last one. -/
theorem colClkStepsTheColumn : Obligations.ColClkStepsTheColumn := by
  intro s hl hx
  obtain ⟨-, ⟨-, hcolumns⟩, -⟩ := (legal_iff _).mp hl
  rw [← masks_hex.2.1]
  by_cases hlast : s.seqX.toNat = s.cfg.columns - 1
  · exact ⟨_, exec_colClk_last hlast, rfl, fun _ => ⟨rfl, rfl⟩, fun h => absurd hlast h⟩
  · have hnext : (s.seqX + 1#16).toNat = s.seqX.toNat + 1 := BitVec.toNat_add_of_lt (by simp; omega)
    exact ⟨_, exec_colClk_step hlast, rfl, fun h => absurd h hlast, fun _ => ⟨hnext, rfl⟩⟩

/-! ### Writes within a mask -/

/-- From `s` to `t` the pins were written by the events that the trace has grown by, each with a mask within `m` (R11, R66). -/
def drivesWithin (m : Word) (s t : State) : Prop :=
  ∃ es, t.trace = s.trace ++ es ∧ t.gpio = es.foldl gpioAfter s.gpio ∧ ∀ e ∈ es, e.mask &&& ~~~m = 0#32

/-- A word lies within a mask exactly when each of its bits is a bit of the mask. -/
theorem within_iff {k m : Word} : k &&& ~~~m = 0#32 ↔ ∀ i (hi : i < 32), k[i] = true → m[i] = true :=
  ⟨fun h i hi => by simpa using congrArg (·[i]) h, fun h => by ext i hi; simpa using h i hi⟩

theorem within_trans {a b c : Word} (hab : a &&& ~~~b = 0#32) (hbc : b &&& ~~~c = 0#32) : a &&& ~~~c = 0#32 :=
  within_iff.mpr fun i hi ha => within_iff.mp hbc i hi (within_iff.mp hab i hi ha)

/-- Pins outside a mask that covers the event's keep their levels (R66). -/
theorem gpioAfter_outside {m g : Word} {e : Event} (h : e.mask &&& ~~~m = 0#32) : gpioAfter g e &&& ~~~m = g &&& ~~~m := by
  ext i hi
  have hbit := within_iff.mp h i hi
  cases hm : m[i] with
  | true => simp [hm]
  | false =>
    rw [hm] at hbit
    cases e with
    | gpioSet k => simp_all [gpioAfter, Event.mask]
    | gpioClr k => simp_all [gpioAfter, Event.mask]
    | ptWrite w => rfl

theorem drivesWithin.outside {m : Word} {s t : State} (h : drivesWithin m s t) : t.gpio &&& ~~~m = s.gpio &&& ~~~m := by
  obtain ⟨es, -, hgpio, hmask⟩ := h
  rw [hgpio]
  generalize s.gpio = g
  clear hgpio
  induction es generalizing g with
  | nil => rfl
  | cons e es ih =>
    rw [List.foldl_cons, ih fun d hd => hmask d (List.mem_cons_of_mem _ hd), gpioAfter_outside (hmask e List.mem_cons_self)]

/-- Pins that the mask does not touch keep their levels. -/
theorem drivesWithin.keeps {m k : Word} {s t : State} (h : drivesWithin m s t) (hk : k &&& m = 0#32) :
    t.gpio &&& k = s.gpio &&& k := by
  have hkm : k = ~~~m &&& k := by
    calc k = k &&& (m ||| ~~~m) := by rw [BitVec.or_not_self, BitVec.and_allOnes]
      _ = ~~~m &&& k := by rw [BitVec.and_or_distrib_left, hk, BitVec.zero_or, BitVec.and_comm]
  rw [hkm, ← BitVec.and_assoc, ← BitVec.and_assoc, h.outside]

theorem drivesWithin.mono {m n : Word} {s t : State} (h : drivesWithin m s t) (hmn : m &&& ~~~n = 0#32) : drivesWithin n s t := by
  obtain ⟨es, htrace, hgpio, hmask⟩ := h
  exact ⟨es, htrace, hgpio, fun e he => within_trans (hmask e he) hmn⟩

/-- One write to the pins, up to a step that touches neither them nor the trace. -/
theorem drivesWithin_gpioSet {m n : Word} {s t : State} (hmn : m &&& ~~~n = 0#32) (hg : t.gpio = (s.gpioSet m).gpio)
    (ht : t.trace = (s.gpioSet m).trace) : drivesWithin n s t :=
  ⟨[.gpioSet m], ht, hg, by simpa [Event.mask] using hmn⟩

theorem drivesWithin_gpioClr {m n : Word} {s t : State} (hmn : m &&& ~~~n = 0#32) (hg : t.gpio = (s.gpioClr m).gpio)
    (ht : t.trace = (s.gpioClr m).trace) : drivesWithin n s t :=
  ⟨[.gpioClr m], ht, hg, by simpa [Event.mask] using hmn⟩

/-- Writes to the pulse timer touch no pin (R11). -/
theorem drivesWithin_ptWrites {m : Word} {s t : State} (ws : List PtWrite) (hg : t.gpio = s.gpio)
    (ht : t.trace = s.trace ++ ws.map .ptWrite) : drivesWithin m s t := by
  refine ⟨_, ht, ?_, by simp [Event.mask]⟩
  rw [hg, List.foldl_map]
  exact (List.foldl_fixed ws).symm

/-- Neither the pins nor the trace differ: no register was written (R11). -/
abbrev State.samePins (s t : State) : Prop := t.gpio = s.gpio ∧ t.trace = s.trace

theorem State.samePins.drivesWithin {s t : State} (h : s.samePins t) (m : Word) : drivesWithin m s t :=
  drivesWithin_ptWrites [] h.1 (by simpa using h.2)

/-! ### The row address -/

/-- The row-address lines of a row address are the half-row (R93). -/
theorem rowAddr_extract (d : BitVec 3) : (rowAddr d).extractLsb' 22 3 = d := by
  revert d
  decide

/-- A row address lies within the row-address lines (R14, R93). -/
theorem rowAddr_within (d : BitVec 3) : rowAddr d &&& ~~~rowMask = 0#32 := by
  revert d
  decide

/-- What `ROW_CLR` leaves on the row-address lines (R165, R167). -/
theorem extract_after_rowClr (g : Word) (d : BitVec 3) :
    (g &&& ~~~(~~~rowAddr d &&& rowMask)).extractLsb' 22 3 = g.extractLsb' 22 3 &&& d := by
  have hmask : (~~~(~~~rowAddr d &&& rowMask)).extractLsb' 22 3 = d := by
    revert d
    decide
  rw [BitVec.extractLsb'_and, hmask]

/-- What `ROW_SET` then makes of them (R166). -/
theorem extract_after_rowSet (g : Word) (d : BitVec 3) :
    (g ||| rowAddr d).extractLsb' 22 3 = g.extractLsb' 22 3 ||| d := by
  rw [BitVec.extractLsb'_or, rowAddr_extract]

theorem rowClr_within (d : BitVec 3) : (~~~rowAddr d &&& rowMask) &&& ~~~rowMask = 0#32 := by
  revert d
  decide

/-! ### What each phase drives -/

/-- The pins a phase may write (R165 to R176, R226). -/
def phasePins : Phase → Word
  | .rowClr | .rowSet => rowMask
  | .colClr | .planeClr => colorClkMask
  | .colData => colorMask
  | .colClk => clkMask
  | .strobeSet | .strobeClr => strobeMask
  | .teardown => allMask
  | .top | .planeWait | .pulse | .rowWait | .halt => 0#32

theorem phasePins_owned (p : Phase) : phasePins p &&& ~~~allMask = 0#32 := by
  cases p <;> decide

/-- What `TOP` can do: go to the teardown, or pick up the pending frame and start at half-row 0 (R222). -/
theorem exec_top_next {s t : State} (h : exec .top s = .next t) :
    (s.stopFlag = true ∧ t = s.goto .teardown) ∨ (s.stopFlag = false ∧ t = { s.pickup with seqD := 0#3 }.goto .rowClr) := by
  change execTop s = .next t at h
  unfold execTop at h
  split at h <;> cases h
  · rename_i hstop; exact .inl ⟨hstop, rfl⟩
  · rename_i hstop; exact .inr ⟨Bool.eq_false_iff.mpr hstop, rfl⟩

/-- What `COL_DATA` can do: one write of the colour bits of the cell's word (R169). -/
theorem exec_colData_next {s t : State} (h : exec .colData s = .next t) :
    ∃ w, s.readCell s.active.toNat s.seqD.toNat s.seqP.toNat s.seqX.toNat = .ok w ∧
      t = (s.gpioSet (w &&& colorMask)).goto .colClk := by
  have h := outcomeOf_eq_next.mp h
  cases hr : s.readCell s.active.toNat s.seqD.toNat s.seqP.toNat s.seqX.toNat with
  | error e => rw [hr] at h; cases h
  | ok w => rw [hr] at h; cases h; exact ⟨w, rfl, rfl⟩

/-- What `PULSE` can do: the writes of `SendPulse`, then the end of the step (R175, R193). -/
theorem exec_pulse_next {s t : State} (h : exec .pulse s = .next t) :
    ∃ u, s.sendPulse s.seqP = .ok u ∧ t = u.afterPulse := by
  have h := outcomeOf_eq_next.mp h
  cases hu : s.sendPulse s.seqP with
  | error e => rw [hu] at h; cases h
  | ok u => rw [hu] at h; cases h; exact ⟨u, rfl, rfl⟩

/-- What `PLANE_WAIT` can do: wait for the FIFO, or make the timer quiescent and go on (R172, R198). -/
theorem exec_planeWait_next {s t : State} (h : exec .planeWait s = .next t) :
    (s.ptFifo ≠ [] ∧ t = s) ∨ (s.ptFifo = [] ∧ t = (s.ptControl .ctlQuiet).goto .strobeSet) := by
  change execPlaneWait s = .next t at h
  unfold execPlaneWait at h
  split at h <;> cases h
  · rename_i hw
    obtain ⟨hempty, rfl⟩ := State.waitPulseFinished_eq_some.mp hw
    exact .inr ⟨hempty, rfl⟩
  · rename_i hw
    exact .inl ⟨State.waitPulseFinished_eq_none.mp hw, rfl⟩

/-- What `ROW_WAIT` can do: wait for the FIFO, or make the timer quiescent and end the half-row (R176, R198). -/
theorem exec_rowWait_next {s t : State} (h : exec .rowWait s = .next t) :
    (s.ptFifo ≠ [] ∧ t = s) ∨ (s.ptFifo = [] ∧ t = (s.ptControl .ctlQuiet).afterRow) := by
  change execRowWait s = .next t at h
  unfold execRowWait at h
  split at h <;> cases h
  · rename_i hw
    obtain ⟨hempty, rfl⟩ := State.waitPulseFinished_eq_some.mp hw
    exact .inr ⟨hempty, rfl⟩
  · rename_i hw
    exact .inl ⟨State.waitPulseFinished_eq_none.mp hw, rfl⟩

/-- Every phase that answers a next state wrote pins of its own only (R178). -/
theorem exec_phase_drives {p : Phase} {s t : State} (h : exec p.instr s = .next t) : drivesWithin (phasePins p) s t := by
  cases p with
  | top =>
    rcases exec_top_next h with ⟨-, rfl⟩ | ⟨-, rfl⟩
    · exact State.samePins.drivesWithin ⟨rfl, rfl⟩ _
    · rw [State.pickup_frame]
      exact State.samePins.drivesWithin ⟨rfl, rfl⟩ _
  | rowClr => cases h; exact drivesWithin_gpioClr (rowClr_within s.seqD) rfl rfl
  | rowSet => cases h; exact drivesWithin_gpioSet (rowAddr_within s.seqD) rfl rfl
  | colClr => cases h; exact drivesWithin_gpioClr (by decide) rfl rfl
  | colData =>
    obtain ⟨w, -, rfl⟩ := exec_colData_next h
    exact drivesWithin_gpioSet (by simp [BitVec.and_assoc, phasePins]) rfl rfl
  | colClk =>
    by_cases hlast : s.seqX.toNat = s.cfg.columns - 1
    · cases (exec_colClk_last hlast).symm.trans h
      exact drivesWithin_gpioSet (by decide) rfl rfl
    · cases (exec_colClk_step hlast).symm.trans h
      exact drivesWithin_gpioSet (by decide) rfl rfl
  | planeClr => cases h; exact drivesWithin_gpioClr (by decide) rfl rfl
  | planeWait =>
    rcases exec_planeWait_next h with ⟨-, rfl⟩ | ⟨-, rfl⟩
    · exact State.samePins.drivesWithin ⟨rfl, rfl⟩ _
    · exact drivesWithin_ptWrites [.ctl .ctlQuiet] rfl rfl
  | strobeSet => cases h; exact drivesWithin_gpioSet (by decide) rfl rfl
  | strobeClr => cases h; exact drivesWithin_gpioClr (by decide) rfl rfl
  | pulse =>
    obtain ⟨u, hu, rfl⟩ := exec_pulse_next h
    obtain ⟨hframe, htrace⟩ := State.sendPulse_frame hu
    rw [State.afterPulse_frame]
    exact drivesWithin_ptWrites _ (by rw [hframe]) htrace
  | rowWait =>
    rcases exec_rowWait_next h with ⟨-, rfl⟩ | ⟨-, rfl⟩
    · exact State.samePins.drivesWithin ⟨rfl, rfl⟩ _
    · rw [State.afterRow_frame]
      exact drivesWithin_ptWrites [.ctl .ctlQuiet] rfl rfl
  | teardown => cases h; exact drivesWithin_gpioClr (by decide) rfl rfl
  | halt => cases h; exact State.samePins.drivesWithin ⟨rfl, rfl⟩ _

/-! ### What each turn drives -/

/-- What a command makes of the pins and the trace is what its effect makes of them. -/
theorem State.onPort_pins {s t : State} {check : Option Status} {effect : Except Fault State}
    (h : s.onPort check effect = .next t) (he : ∀ u, effect = .ok u → s.samePins u) :
    s.samePins t := by
  rcases State.onPort_cases h with ⟨-, rfl⟩ | ⟨-, st, -, rfl⟩ | ⟨-, -, hok⟩
  · exact ⟨rfl, rfl⟩
  · exact ⟨rfl, rfl⟩
  · exact he t hok

/-- Patching a frame touches neither the pins nor the trace, whatever else is done to the result. -/
theorem State.patchFrame_pins {s u : State} {f : FrameId} {cs : List CellPatch} {g : State → State}
    (hg : ∀ v : State, v.samePins (g v)) (h : (s.patchFrame f cs).map g = .ok u) :
    s.samePins u := by
  cases hv : s.patchFrame f cs with
  | error e => rw [hv] at h; cases h
  | ok v =>
    rw [hv] at h
    cases h
    obtain ⟨-, rfl⟩ := State.patchFrame_eq_ok.mp hv
    exact hg _

/-- A command touches neither the pins nor the trace (R68). -/
theorem exec_cmd_pins {i : Instr} {s t : State} (hi : i.format = .cmd) (h : exec i s = .next t) :
    s.samePins t := by
  cases i with
  | setpixel f x y r g b =>
    refine State.onPort_pins h fun u hu => ?_
    split at hu
    · cases hu; exact ⟨rfl, rfl⟩
    · exact State.patchFrame_pins (g := (·.respond .ok 0#16)) (fun _ => ⟨rfl, rfl⟩) hu
  | fill f r g b => exact State.onPort_pins h fun _ => State.patchFrame_pins fun _ => ⟨rfl, rfl⟩
  | clear f => exact State.onPort_pins h fun _ => State.patchFrame_pins fun _ => ⟨rfl, rfl⟩
  | createframe => exact State.onPort_pins h fun _ => State.patchFrame_pins fun _ => ⟨rfl, rfl⟩
  | setpwmbits f v => exact State.onPort_pins h fun _ hu => by cases hu; exact ⟨rfl, rfl⟩
  | setbrightness f v => exact State.onPort_pins h fun _ hu => by cases hu; exact ⟨rfl, rfl⟩
  | setlumcorrect f v => exact State.onPort_pins h fun _ hu => by cases hu; exact ⟨rfl, rfl⟩
  | width => exact State.onPort_pins h fun _ hu => by cases hu; exact ⟨rfl, rfl⟩
  | height => exact State.onPort_pins h fun _ hu => by cases hu; exact ⟨rfl, rfl⟩
  | shutdown => exact State.onPort_pins h fun _ hu => by cases hu; exact ⟨rfl, rfl⟩
  | swaponvsync f =>
    change execSwaponvsync f s = .next t at h
    unfold execSwaponvsync at h
    split at h <;> exact State.onPort_pins h fun _ hu => by cases hu; exact ⟨rfl, rfl⟩
  | top | rowClr | rowSet | colClr | colData | colClk | planeClr | planeWait | strobeSet | strobeClr | pulse | rowWait | teardown
  | halt => cases hi

theorem State.cmdTurn_pins {s t : State} (h : s.cmdTurn = .next t) : s.samePins t := by
  rcases State.cmdTurn_cases h with rfl | ⟨-, w, -, hw⟩ | ⟨-, g, -, rfl⟩ | ⟨-, -, rfl⟩
  · exact ⟨rfl, rfl⟩
  · rcases runWord_cases hw with ⟨st, rfl⟩ | ⟨-, i, hi, hexec⟩
    · exact ⟨rfl, rfl⟩
    · exact exec_cmd_pins (s := { s with cmd := none }) (decodeCmd_format hi) hexec
  · exact ⟨rfl, rfl⟩
  · exact ⟨rfl, rfl⟩

theorem State.hostTurn_pins (s : State) : s.samePins s.hostTurn := by
  rcases s.hostTurn_cases with h | ⟨-, -, w, ws, n, h⟩ <;> rw [h] <;> exact ⟨rfl, rfl⟩

/-- Of the five agents only `SEQ` writes pins or the trace (R10, R11). -/
theorem State.turn_pins_or_phase {s t : State} {a : Agent} (h : s.turn a = .next t) :
    s.samePins t ∨ exec s.seqPc.instr s = .next t := by
  cases a with
  | host => cases h; exact .inl s.hostTurn_pins
  | cmd => exact .inl (State.cmdTurn_pins h)
  | seq => exact .inr h
  | pt =>
    have hframe := State.tick_frame (outcomeOf_eq_next.mp h)
    exact .inl (by rw [hframe]; exact ⟨rfl, rfl⟩)
  | t1m => cases h; exact .inl ⟨rfl, rfl⟩

/-- A step leaves the pins and the trace, or it runs the phase that `seq_pc` names. -/
theorem step_pins_or_phase {s t : State} (h : step s = .next t) :
    s.samePins t ∨ exec s.seqPc.instr s.takeTurn.2 = .next t := by
  obtain ⟨-, hturn⟩ := step_next h
  have hpc : s.takeTurn.2.seqPc = s.seqPc := by rw [State.takeTurn_frame]
  rcases State.turn_pins_or_phase hturn with hsame | hexec
  · rw [State.takeTurn_frame] at hsame
    exact .inl hsame
  · rw [hpc] at hexec
    exact .inr hexec

/-- Every step writes pins of the phase in `seq_pc` at most (R178). -/
theorem step_drives {s t : State} (h : step s = .next t) : drivesWithin (phasePins s.seqPc) s t := by
  rcases step_pins_or_phase h with hsame | hexec
  · exact hsame.drivesWithin _
  · have hdrives := exec_phase_drives hexec
    rw [State.takeTurn_frame] at hdrives
    exact hdrives

/-- `OE_BIT` is not among the pins the block owns (R14, R178). -/
theorem and_oeBit_of_owned {m : Word} (h : m &&& ~~~allMask = 0#32) : m &&& oeBit = 0#32 := by
  have hoe : oeBit = ~~~allMask &&& oeBit := by decide
  rw [hoe, ← BitVec.and_assoc, h, BitVec.zero_and]

/-- Settles O55: what a step drives lies within the pins of its phase, and these within `ALL_MASK`. -/
theorem otherPinsNeverChange : Obligations.OtherPinsNeverChange := by
  intro s t h
  have hdrives : drivesWithin allMask s t := (step_drives h).mono (phasePins_owned _)
  have houtside := hdrives.outside
  obtain ⟨es, htrace, -, hmask⟩ := hdrives
  exact ⟨houtside, es, htrace, fun e he => ⟨hmask e he, and_oeBit_of_owned (hmask e he)⟩⟩

/-! ### The row address and the strobe -/

/-- The phases that write the row-address lines or the strobe (R165, R166, R173, R174, R226). -/
def latchOrRowPhases : List Phase := [.rowClr, .rowSet, .strobeSet, .strobeClr, .teardown]

theorem latchOrRowPhases_dark : ∀ p ∈ latchOrRowPhases, darkPhase p = true := by decide

/-- Every other phase leaves those pins. -/
theorem phasePins_latch_row (p : Phase) :
    p ∈ latchOrRowPhases ∨ (rowMask &&& phasePins p = 0#32 ∧ strobeMask &&& phasePins p = 0#32) := by
  cases p <;> decide

/-- These phases do not touch the timer. -/
theorem exec_latch_row_quiescent {p : Phase} {s t : State} (hp : p ∈ latchOrRowPhases) (h : exec p.instr s = .next t)
    (hq : s.quiescent) : t.quiescent := by
  simp only [latchOrRowPhases, List.mem_cons, List.not_mem_nil, or_false] at hp
  rcases hp with rfl | rfl | rfl | rfl | rfl <;> cases h <;> exact hq

/-- The row the lines select is read from the row-address lines. -/
theorem litRow_eq {s t : State} (h : t.gpio &&& rowMask = s.gpio &&& rowMask) : t.litRow = s.litRow := by
  have hall : rowMask.extractLsb' 22 3 = BitVec.allOnes 3 := by decide
  have hbits := congrArg (BitVec.extractLsb' 22 3) h
  simp only [BitVec.extractLsb'_and, hall, BitVec.and_allOnes] at hbits
  simp only [State.litRow, hbits]

/-- A state of the invariant in a dark phase has a quiescent timer (R182). -/
theorem Inv.quiescent_of_dark {s : State} (hI : Inv s) (h : darkPhase s.seqPc = true) : s.quiescent := by
  obtain ⟨-, -, hdark, -, -⟩ := hI.timerOk
  exact hdark h

/-- A step that keeps the row-address lines and the strobe neither changes the row nor raises the strobe. -/
theorem no_latch_or_row_change {s t : State} (hrow : t.gpio &&& rowMask = s.gpio &&& rowMask)
    (hstrobe : t.gpio &&& strobeMask = s.gpio &&& strobeMask) :
    ¬(t.litRow ≠ s.litRow ∨ (s.gpio &&& strobeMask = 0#32 ∧ t.gpio &&& strobeMask ≠ 0#32)) := by
  rw [hstrobe, litRow_eq hrow]
  tauto

/-- Settles O54: a step that changes the row address or raises the strobe ran one of the phases that write those pins; they are
dark and leave the timer. -/
theorem latchAndRowChangeOnlyInTheDark : Obligations.LatchAndRowChangeOnlyInTheDark := by
  intro s t hI h
  have hdark : ∀ p ∈ [Phase.rowClr, .rowSet, .strobeSet, .strobeClr, .pulse, .top, .teardown], darkPhase p = true := by decide
  refine ⟨fun hp => hI.quiescent_of_dark (hdark _ hp), fun hchange => ?_⟩
  rcases step_pins_or_phase h with ⟨hgpio, -⟩ | hexec
  · exact absurd hchange (no_latch_or_row_change (by rw [hgpio]) (by rw [hgpio]))
  · rcases phasePins_latch_row s.seqPc with hp | ⟨hrow, hstrobe⟩
    · have hq : s.quiescent := hI.quiescent_of_dark (latchOrRowPhases_dark _ hp)
      exact ⟨hq, exec_latch_row_quiescent hp hexec (by rw [State.takeTurn_frame]; exact hq)⟩
    · have hdrives := step_drives h
      exact absurd hchange (no_latch_or_row_change (hdrives.keeps hrow) (hdrives.keeps hstrobe))

/-- Settles O35: each write by what it makes of the row-address lines, and by the pins it lies within. -/
theorem rowAddressIsSetInTwoWrites : Obligations.RowAddressIsSetInTwoWrites := by
  intro s hl
  obtain ⟨-, -, -, hrow, -⟩ := masks_hex
  obtain ⟨-, -, -, ⟨-, hn⟩, -⟩ := (legal_iff _).mp hl
  rw [← hrow]
  have hclr := (exec_phase_drives (p := .rowClr) (exec_rowClr s)).outside
  refine ⟨_, _, exec_rowClr s, exec_rowSet _, rfl, rfl, extract_after_rowClr _ _, ?_, hclr, ?_, ?_⟩
  · have habsorb : s.gpio.extractLsb' 22 3 &&& s.seqD ||| s.seqD = s.seqD := by ext; simp
    simp [extract_after_rowSet, extract_after_rowClr, habsorb]
  · exact (exec_phase_drives (p := .rowSet) (exec_rowSet _)).outside.trans hclr
  · exact Nat.mod_eq_of_lt (by change s.cfg.n - _ < 16; omega)

end Sys2Proof.Machine

/-! ## The double buffer: publishing a frame and picking it up

An accepted swap publishes its frame and blocks the port; a blocked port is offered no further word. At `TOP` the stop flag comes
first; without it, the pickup hands the active frame over to the pending one. -/

namespace Sys2Proof.Machine

/-- Only an idle port is offered a word (R31, R94). -/
theorem State.hostTurn_blocked {s : State} (h : s.host ≠ .idle) : s.hostTurn = s := by
  rcases s.hostTurn_cases with hsame | ⟨hidle, -⟩
  · exact hsame
  · exact absurd hidle h

/-- An accepted swap of a frame the producer may write publishes it and blocks the port (R219). -/
theorem exec_swaponvsync_publish {s : State} {f : FrameId} (ha : s.accepting) (hf : f ≠ 0xF#4) (hw : s.writable f) :
    exec (.swaponvsync f) s = .next { s with pending := some f, host := .waitSwap } := by
  obtain ⟨hidle, hrun⟩ := ha
  have hcheck : s.writeCheck f = none := State.writeCheck_eq_none.mpr ⟨hrun, hw⟩
  calc exec (.swaponvsync f) s
    _ = s.onPort (s.writeCheck f) (.ok { s with pending := some f, host := .waitSwap }) := if_neg hf
    _ = .next { s with pending := some f, host := .waitSwap } := State.onPort_accept hidle hcheck

/-- Settles O25: the swap passes the checks of the port, and the port it blocks is offered nothing. -/
theorem swapPublishesTheFrame : Obligations.SwapPublishesTheFrame := by
  intro s f ha hf hw
  have hblocked : { s with pending := some f, host := .waitSwap }.host ≠ .idle := HostState.noConfusion
  exact ⟨exec_swaponvsync_publish ha hf hw, State.hostTurn_blocked hblocked⟩

/-- With nothing pending the pickup changes nothing (R222). -/
theorem State.pickup_of_none {s : State} (h : s.pending = none) : s.pickup = s := by simp [State.pickup, h]

/-- A pending frame becomes active, and the frame active before is handed back (R222). -/
theorem State.pickup_of_some {s : State} {g : FrameId} (h : s.pending = some g) :
    s.pickup = { s with swapRet := some s.active, active := g, pending := none } := by simp [State.pickup, h]

/-- `TOP` with the stop flag set (R222). -/
theorem exec_top_stop {s : State} (h : s.stopFlag = true) : exec .top s = .next (s.goto .teardown) := if_pos h

/-- `TOP` without it (R222). -/
theorem exec_top_scan {s : State} (h : s.stopFlag = false) :
    exec .top s = .next ({ s.pickup with seqD := 0#3 }.goto .rowClr) := if_neg (Bool.eq_false_iff.mp h)

/-- Settles O29: by the stop flag, then by whether a frame is pending. -/
theorem topChecksStopThenPicksUp : Obligations.TopChecksStopThenPicksUp := by
  intro s
  refine ⟨exec_top_stop, fun hstop hnone => ?_, fun g hstop hsome => ?_⟩
  · rw [exec_top_scan hstop, State.pickup_of_none hnone]
    rfl
  · rw [exec_top_scan hstop, State.pickup_of_some hsome]
    rfl

end Sys2Proof.Machine

/-! ## Refused commands: the checks in their order

A command that writes a frame makes the checks of its frame before any check of its own, so the first of them that fails names
the status, whatever the other operands are. The settings commands check their argument last. -/

namespace Sys2Proof.Machine

variable {s : State} {f : FrameId}

/-- After a failed construction the terminal check fails first (R250). -/
theorem State.writeCheck_of_failed (hrun : s.run = .failed) : s.writeCheck f = some .errFatal := by
  simp [State.writeCheck, State.portCheck, hrun]

/-- After shutdown the terminal check fails first (R248). -/
theorem State.writeCheck_of_stopped (hrun : s.run = .stopped) : s.writeCheck f = some .errStopped := by
  simp [State.writeCheck, State.portCheck, hrun]

/-- In a running block the check that the frame is created comes first (R245). -/
theorem State.writeCheck_of_not_created (hrun : s.run = .scanning) (hf : ¬ s.created f) : s.writeCheck f = some .errFrame := by
  have hport : s.portCheck = none := State.portCheck_eq_none.mpr hrun
  have hframe : s.frameCheck f = some .errFrame := by simp [State.frameCheck, BitVec.not_lt.mp hf]
  simp [State.writeCheck, hport, hframe]

/-- The ownership check comes after it (R246). -/
theorem State.writeCheck_of_active (hrun : s.run = .scanning) (hf : s.created f) (hactive : f = s.active) :
    s.writeCheck f = some .errActive := by
  have hport : s.portCheck = none := State.portCheck_eq_none.mpr hrun
  have hframe : s.frameCheck f = none := by simpa [State.frameCheck] using hf
  have howner : s.ownerCheck f = some .errActive := by simp [State.ownerCheck, hactive]
  simp [State.writeCheck, hport, hframe, howner]

/-- A command that writes a frame makes the checks of that frame first, whatever checks and effect follow (R135). -/
theorem exec_of_writesFrame {i : Instr} (hi : writesFrame i = some f) :
    ∃ own effect, exec i s = s.onPort ((s.writeCheck f).or own) effect := by
  cases i with
  | setpixel | fill | clear =>
    cases hi
    exact ⟨none, _, by rw [Option.or_none]; rfl⟩
  | setpwmbits | setbrightness | setlumcorrect =>
    cases hi
    exact ⟨_, _, rfl⟩
  | _ => cases hi

/-- A swap that is not a peek makes the same checks (R218). -/
theorem exec_swaponvsync_of_ne_null (hf : f ≠ 0xF#4) :
    exec (.swaponvsync f) s = s.onPort (s.writeCheck f) (.ok { s with pending := some f, host := .waitSwap }) := if_neg hf

/-- A failing check of the frame is the answer of each of these commands, and all that it changes (R241, R244). -/
theorem exec_of_writeCheck_eq_some {i : Instr} {st : Status} (hidle : s.host = .idle)
    (hi : writesFrame i = some f ∨ (i = .swaponvsync f ∧ f ≠ 0xF#4)) (hcheck : s.writeCheck f = some st) :
    exec i s = .next (s.respond st 0#16) := by
  rcases hi with hwrites | ⟨rfl, hnull⟩
  · obtain ⟨own, effect, hexec⟩ := exec_of_writesFrame (s := s) hwrites
    have hfirst : (s.writeCheck f).or own = some st := by rw [hcheck, Option.some_or]
    exact hexec.trans (State.onPort_reject hidle hfirst)
  · exact (exec_swaponvsync_of_ne_null hnull).trans (State.onPort_reject hidle hcheck)

/-- Settles O9: in each clause the check it names is the first that fails. -/
theorem frameChecksInOrder : Obligations.FrameChecksInOrder := by
  intro s i f hidle hi
  refine ⟨fun hrun => ?_, fun hrun => ?_, fun hrun hf => ?_, fun hrun hf hactive => ?_⟩
  · exact exec_of_writeCheck_eq_some hidle hi (State.writeCheck_of_failed hrun)
  · exact exec_of_writeCheck_eq_some hidle hi (State.writeCheck_of_stopped hrun)
  · exact exec_of_writeCheck_eq_some hidle hi (State.writeCheck_of_not_created hrun hf)
  · exact exec_of_writeCheck_eq_some hidle hi (State.writeCheck_of_active hrun hf hactive)

/-- When the checks of the frame pass, a failing check of the argument is the answer (R244, R247). -/
theorem State.onPort_failIf {P : Prop} [Decidable P] {st : Status} {effect : Except Fault State} (ha : s.accepting)
    (hw : s.writable f) (hP : P) :
    s.onPort ((s.writeCheck f).or (failIf (decide P) st)) effect = .next (s.respond st 0#16) := by
  have hframe : s.writeCheck f = none := State.writeCheck_eq_none.mpr ⟨ha.2, hw⟩
  have hcheck : (s.writeCheck f).or (failIf (decide P) st) = some st := by simp [hframe, hP]
  exact State.onPort_reject ha.1 hcheck

/-- Settles O20: the checks of the frame pass, and the argument is out of the range that the command checks. -/
theorem argumentsOutOfRangeAreRefused : Obligations.ArgumentsOutOfRangeAreRefused := by
  intro s f v ha hw
  refine ⟨fun hv => ?_, fun hv => ?_, fun hv => ?_⟩
  · have hrange : v.toNat < 1 ∨ s.cfg.n < v.toNat := hv.imp_left Nat.lt_one_iff.mpr
    exact State.onPort_failIf ha hw hrange
  · have hrange : v.toNat < 1 ∨ 100 < v.toNat := hv.imp_left Nat.lt_one_iff.mpr
    exact State.onPort_failIf ha hw hrange
  · exact State.onPort_failIf ha hw hv

end Sys2Proof.Machine

/-! ## Reset

Only `run` and `seq_pc` depend on `map_ok`, and nothing the invariant says depends on the open registers: frame memory lists no word,
every frame has its creation settings, nothing is handed over and the timer is quiescent. -/

namespace Sys2Proof.Machine

variable {c : Config} {i : ResetInputs}

/-- The depth of a legal configuration fits the field `pwm_bits` (R6, R23). -/
theorem FrameSettings.created_pwmBits (h : c.legal = true) : (FrameSettings.created c).pwmBits.toNat = c.n := by
  obtain ⟨-, -, -, ⟨-, hn⟩, -⟩ := (legal_iff c).mp h
  exact Nat.mod_eq_of_lt (by omega)

/-- The creation settings are legal (R22, R23). -/
theorem FrameSettings.created_ok (h : c.legal = true) : (FrameSettings.created c).ok c := by
  obtain ⟨-, -, -, ⟨hn, -⟩, -⟩ := (legal_iff c).mp h
  have hbits := FrameSettings.created_pwmBits h
  have hbright : 1 ≤ (100#7).toNat ∧ (100#7).toNat ≤ 100 := by decide
  exact ⟨hbright.1, hbright.2, by omega, hbits.le⟩

/-- Every frame has the creation settings at reset (R271). -/
@[simp] theorem State.settings_resetFrom (f : FrameId) : (State.resetFrom c i).settings f = FrameSettings.created c :=
  Vector.getElem_replicate f.isLt

/-- With the registers mapped the block scans from `TOP` (R274). -/
theorem State.resetFrom_of_mapOk (h : i.mapOk = true) :
    (State.resetFrom c i).run = .scanning ∧ (State.resetFrom c i).seqPc = .top := by
  simp [State.resetFrom, h]

/-- Without them construction has failed and the sequencer is halted (R250, R274). -/
theorem State.resetFrom_of_not_mapOk (h : i.mapOk = false) :
    (State.resetFrom c i).run = .failed ∧ (State.resetFrom c i).seqPc = .halt := by
  simp [State.resetFrom, h]

/-- The timer is idle at reset (R271). -/
theorem State.resetFrom_quiescent : (State.resetFrom c i).quiescent := ⟨rfl, rfl, rfl, rfl, rfl⟩

/-- Frame memory lists no word at reset. -/
theorem State.resetFrom_memOk : (State.resetFrom c i).memOk := by
  have hwf : Memory.wf [] := by decide
  exact ⟨hwf, List.forall_mem_nil _, List.forall_mem_nil _⟩

/-- One frame is created and active, none is in flight, and the port waits for none (R50 c, d). -/
theorem State.resetFrom_handoffOk (h : c.legal = true) : (State.resetFrom c i).handoffOk := by
  obtain ⟨-, -, -, -, ⟨hframes, -⟩, -⟩ := (legal_iff c).mp h
  have hcount : (1#4).toNat ≤ c.numFrames := Nat.le_of_succ_le hframes
  have hactive : 0#4 < 1#4 := by decide
  have hport : HostState.idle = .waitSwap ↔ ((none : Option FrameId).isSome ∨ (none : Option FrameId).isSome) := by decide
  exact ⟨Nat.le_refl 1, hcount, hactive, fun _ hg => (nomatch hg), fun _ hg => (nomatch hg), .inl rfl, hport⟩

/-- Nobody has asked for shutdown, and the block has not stopped, whatever `map_ok` is (R274). -/
theorem State.resetFrom_runOk : (State.resetFrom c i).runOk := by
  have hstop : (State.resetFrom c i).stopFlag = false := rfl
  have hhost : (State.resetFrom c i).host = .idle := rfl
  have htrace : (State.resetFrom c i).trace = [] := rfl
  cases hmap : i.mapOk with
  | true =>
    obtain ⟨hrun, hpc⟩ := State.resetFrom_of_mapOk (c := c) hmap
    simp [State.runOk, hstop, hhost, hrun, hpc]
  | false =>
    obtain ⟨hrun, hpc⟩ := State.resetFrom_of_not_mapOk (c := c) hmap
    simp [State.runOk, hstop, hhost, htrace, hrun, hpc]

/-- At reset the sequencer is in no phase that selects a plane. -/
theorem State.resetFrom_selectsPlane : selectsPlane (State.resetFrom c i).seqPc = false := by
  cases hmap : i.mapOk with
  | true => rw [(State.resetFrom_of_mapOk hmap).2]; rfl
  | false => rw [(State.resetFrom_of_not_mapOk hmap).2]; rfl

/-- The counters are 0, and no bound of a legal configuration is (R177). -/
theorem State.resetFrom_countersOk (h : c.legal = true) : (State.resetFrom c i).countersOk := by
  obtain ⟨-, ⟨hcolumns, -⟩, -, ⟨hn, -⟩, -⟩ := (legal_iff c).mp h
  have hhalf := (legal_half h).1
  have hplane : selectsPlane (State.resetFrom c i).seqPc ≠ true := by simp [State.resetFrom_selectsPlane]
  exact ⟨hhalf, Nat.zero_lt_of_lt hn, hcolumns, fun hselects => absurd hselects hplane⟩

/-- A quiescent and disabled timer is a good one (R202). -/
theorem State.resetFrom_timerOk : (State.resetFrom c i).timerOk :=
  ⟨Nat.zero_le _, fun _ he => (nomatch he), fun _ => State.resetFrom_quiescent, fun _ => State.resetFrom_quiescent,
    fun hen => (nomatch hen)⟩

/-- Reset under a legal configuration meets the invariant, whatever the inputs are (R50, R271). -/
theorem Inv.resetFrom (h : c.legal = true) : Inv (State.resetFrom c i) where
  legal := h
  memOk := State.resetFrom_memOk
  settingsOk f _ := by rw [State.settings_resetFrom]; exact FrameSettings.created_ok h
  handoffOk := State.resetFrom_handoffOk h
  runOk := State.resetFrom_runOk
  countersOk := State.resetFrom_countersOk h
  timerOk := State.resetFrom_timerOk
  masksOk := List.forall_mem_nil _

/-- Settles O51: the invariant, the settings of frame 0, the timer and the two values of `map_ok` by their lemmas; the other
registers stand in `State.resetFrom` as R271 gives them. -/
theorem resetMeetsTheInvariant : Obligations.ResetMeetsTheInvariant := by
  rintro c i _ hlegal rfl
  rw [State.settings_resetFrom]
  refine ⟨Inv.resetFrom hlegal, rfl, fun _ _ => rfl, rfl, FrameSettings.created_pwmBits hlegal, rfl, ?_⟩
  exact ⟨rfl, rfl, rfl, rfl, rfl, rfl, rfl, rfl, rfl, rfl, State.resetFrom_quiescent, rfl, rfl, rfl, rfl, rfl, rfl, rfl,
    State.resetFrom_of_mapOk, State.resetFrom_of_not_mapOk⟩

end Sys2Proof.Machine

/-! ## Encoding and decoding

The fields of a word packed from fields are those fields, and the phase of a phase's code is that phase. So a command decodes from its
own encoding as its fields do; and a word that decodes has the opcode and the zero fields that the encoder writes. -/

namespace Sys2Proof

open Machine (decodeCmd_format)

/-- The fields of a packed word are those it was packed from (R95). -/
theorem CmdFields.ofWord_toWord (c : CmdFields) : CmdFields.ofWord c.toWord = c := by
  obtain ⟨op, f, x, y, r, g, b⟩ := c
  refine (CmdFields.mk.injEq ..).mpr ⟨?_, ?_, ?_, ?_, ?_, ?_, BitVec.extractLsb'_append_eq_right⟩
  · iterate 5 refine (BitVec.extractLsb'_append_eq_of_le (by decide)).trans ?_
    exact BitVec.extractLsb'_append_eq_left
  · iterate 5 refine (BitVec.extractLsb'_append_eq_of_le (by decide)).trans ?_
    exact BitVec.extractLsb'_append_eq_right
  · iterate 4 refine (BitVec.extractLsb'_append_eq_of_le (by decide)).trans ?_
    exact BitVec.extractLsb'_append_eq_right
  · iterate 3 refine (BitVec.extractLsb'_append_eq_of_le (by decide)).trans ?_
    exact BitVec.extractLsb'_append_eq_right
  · iterate 2 refine (BitVec.extractLsb'_append_eq_of_le (by decide)).trans ?_
    exact BitVec.extractLsb'_append_eq_right
  · exact (BitVec.extractLsb'_append_eq_of_le (by decide)).trans BitVec.extractLsb'_append_eq_right

theorem decode_toWord (c : CmdFields) : decode (.cmd c.toWord) = decodeFields c := by
  rw [decode, decodeCmd, CmdFields.ofWord_toWord]

/-- A phase is the one its code names (R32). -/
theorem decodePhase_code (p : Phase) : decodePhase p.code = .ok p := by cases p <;> rfl

/-- A code that names a phase is that phase's code (R32). -/
theorem code_of_decodePhase {c : BitVec 4} {p : Phase} (h : decodePhase c = .ok p) : p.code = c := by
  unfold decodePhase at h
  split at h
  · rename_i q hq
    cases h
    simpa using List.find?_some hq
  · cases h

theorem decode_code (p : Phase) : decode (.phase p.code) = .ok p.instr := by rw [decode, decodePhase_code]

theorem encode_phase (p : Phase) : encode p.instr = .phase p.code := by cases p <;> rfl

/-- The row of a phase is a phase's instruction (R90). -/
theorem exists_phase_of_format {i : Instr} (h : i.format = .seqPhase) : ∃ p : Phase, i = p.instr := by
  cases i with
  | top => exact ⟨.top, rfl⟩
  | rowClr => exact ⟨.rowClr, rfl⟩
  | rowSet => exact ⟨.rowSet, rfl⟩
  | colClr => exact ⟨.colClr, rfl⟩
  | colData => exact ⟨.colData, rfl⟩
  | colClk => exact ⟨.colClk, rfl⟩
  | planeClr => exact ⟨.planeClr, rfl⟩
  | planeWait => exact ⟨.planeWait, rfl⟩
  | strobeSet => exact ⟨.strobeSet, rfl⟩
  | strobeClr => exact ⟨.strobeClr, rfl⟩
  | pulse => exact ⟨.pulse, rfl⟩
  | rowWait => exact ⟨.rowWait, rfl⟩
  | teardown => exact ⟨.teardown, rfl⟩
  | halt => exact ⟨.halt, rfl⟩
  | _ => cases h

/-- The command words decode from their own encoding: the encoder writes the opcode of R96 and zero in each reserved field. -/
theorem decode_encode_cmd {i : Instr} (h : i.format = .cmd) : decode (encode i) = .ok i := by
  cases i with
  | setpixel | fill | clear | setpwmbits | setbrightness | setlumcorrect | width | height | createframe | swaponvsync
  | shutdown => exact (decode_toWord _).trans rfl
  | _ => cases h

/-- Settles O2: by the format; a command by its fields, a phase by its code. -/
theorem decodeOfEncodeIsTheInstruction : Obligations.DecodeOfEncodeIsTheInstruction := by
  intro i _
  cases hi : i.format with
  | cmd => exact decode_encode_cmd hi
  | seqPhase =>
    obtain ⟨p, rfl⟩ := exists_phase_of_format hi
    rw [encode_phase, decode_code]

/-- Fields that decode are those of the instruction's encoding: the fields that its opcode does not use are zero (R100). -/
theorem encode_of_decodeFields {c : CmdFields} {i : Instr} (h : decodeFields c = .ok i) : encode i = .cmd c.toWord := by
  obtain ⟨op, f, x, y, r, g, b⟩ := c
  rcases decodeFields_eq_ok_iff.mp h with
    ⟨hop, rfl⟩ | ⟨hop, hz, rfl⟩ | ⟨hop, hz, rfl⟩ | ⟨hop, hz, rfl⟩ | ⟨hop, hz, rfl⟩ | ⟨hop, hz, rfl⟩ | ⟨hop, hz, rfl⟩ |
    ⟨hop, hz, rfl⟩ | ⟨hop, hz, rfl⟩ | ⟨hop, hz, rfl⟩ | ⟨hop, hz, rfl⟩
  all_goals simp_all [encode, encodeSetting]

/-- Settles O3: a command word is packed from its fields, and a phase code is its phase's. -/
theorem encodeOfDecodeIsTheWord : Obligations.EncodeOfDecodeIsTheWord := by
  intro c i h
  cases c with
  | cmd w =>
    have hfields : encode i = .cmd (CmdFields.ofWord w).toWord := encode_of_decodeFields h
    rwa [CmdFields.toWord_ofWord] at hfields
  | phase c =>
    cases hp : decodePhase c with
    | error e => rw [decode, hp] at h; cases h
    | ok p =>
      rw [decode, hp] at h
      cases h
      rw [encode_phase, code_of_decodePhase hp]

/-- Settles O1: the words are the encodings of the instructions, which decode from them; the two refused ones by their fields and
the unused code by evaluation. -/
theorem decodesWordsOfTheSpec : Obligations.DecodesWordsOfTheSpec := by
  have hdecode := decodeOfEncodeIsTheInstruction
  exact ⟨hdecode (.setpixel 1#4 1#16 3#16 0#8 128#8 255#8) rfl, hdecode (.fill 1#4 10#8 200#8 77#8) rfl,
    hdecode (.clear 1#4) rfl, hdecode (.setbrightness 1#4 100#8) rfl, hdecode (.swaponvsync 0xF#4) rfl, rfl, rfl,
    hdecode .pulse rfl, rfl⟩

end Sys2Proof

/-! ## Turns and the command port

Every command is one command at the port whose first check is the terminal one, so a blocked port takes none of them, and a block that
does not run answers all of them alike. A step is the turn of the listed agent. -/

namespace Sys2Proof.Machine

/-- Every command is run at the port and makes the terminal check first (R94, R244). -/
theorem exec_cmd_eq_onPort {i : Instr} (hi : i.format = .cmd) (s : State) :
    ∃ own effect, exec i s = s.onPort (s.portCheck.or own) effect := by
  cases i with
  | setpixel | fill | clear | createframe => exact ⟨_, _, rfl⟩
  | setpwmbits | setbrightness | setlumcorrect => exact ⟨_, _, congrArg (s.onPort · _) Option.or_assoc⟩
  | width | height | shutdown => exact ⟨none, _, congrArg (s.onPort · _) Option.or_none.symm⟩
  | swaponvsync f =>
    by_cases hf : f = 0xF#4
    · exact ⟨none, _, (if_pos hf).trans (congrArg (s.onPort · _) Option.or_none.symm)⟩
    · exact ⟨_, _, exec_swaponvsync_of_ne_null hf⟩
  | _ => cases hi

/-- Settles O10: every command is run at the port, and a blocked port accepts nothing. -/
theorem blockedPortAcceptsNothing : Obligations.BlockedPortAcceptsNothing := by
  intro s i hi hblocked
  obtain ⟨own, effect, hexec⟩ := exec_cmd_eq_onPort hi s
  rw [hexec, State.onPort_blocked hblocked]

/-- A block that does not run answers every command with its terminal status (R248, R250). -/
theorem exec_cmd_of_portCheck {i : Instr} {s : State} {st : Status} (hi : i.format = .cmd) (hidle : s.host = .idle)
    (hcheck : s.portCheck = some st) : exec i s = .next (s.respond st 0#16) := by
  obtain ⟨own, effect, hexec⟩ := exec_cmd_eq_onPort hi s
  rw [hexec, State.onPort_reject hidle (st := st) (by rw [hcheck, Option.some_or])]

/-- A presented word that decodes has the meaning of its command; the terminal check made before the decoding is the command's own
first check (R244). -/
theorem runWord_of_decodes {w : CmdWord} {i : Instr} {s : State} (hidle : s.host = .idle) (hi : decodeCmd w = .ok i) :
    runWord w s = exec i s := by
  cases hcheck : s.portCheck with
  | none => simp [runWord, hcheck, hi]
  | some st => simp [runWord, hcheck, exec_cmd_of_portCheck (decodeCmd_format hi) hidle hcheck]

theorem runWord_of_portCheck {w : CmdWord} {s : State} {st : Status} (hcheck : s.portCheck = some st) :
    runWord w s = .next (s.respond st 0#16) := by simp [runWord, hcheck]

theorem runWord_of_error {w : CmdWord} {s : State} {e : DecodeError} (hrun : s.run = .scanning) (hw : decodeCmd w = .error e) :
    runWord w s = .next (s.respond .errIllegal 0#16) := by simp [runWord, State.portCheck_eq_none.mpr hrun, hw]

/-- The command executor's turn with a word waiting at an idle port (R94). -/
theorem State.cmdTurn_of_word {s : State} {w : CmdWord} (hidle : s.host = .idle) (hw : s.cmd = some w) :
    s.cmdTurn = runWord w { s with cmd := none } := by simp [State.cmdTurn, hidle, hw]

variable {s : State} {rest : List Agent}

/-- The step of the command executor with a word waiting at an idle port (R94). -/
theorem step_cmd {w : CmdWord} (hl : s.cfg.legal = true) (ha : s.agenda = .cmd :: rest) (hidle : s.host = .idle)
    (hw : s.cmd = some w) : step s = runWord w { s with agenda := rest, cmd := none } := by
  rw [step_of_agenda hl ha]
  exact State.cmdTurn_of_word (s := { s with agenda := rest }) hidle hw

/-- Settles O5: the step runs the presented word, which decodes to the command. -/
theorem stepRunsThePresentedCommand : Obligations.StepRunsThePresentedCommand := by
  intro s rest w i hl ha hidle hw hi
  rw [step_cmd hl ha hidle hw]
  exact runWord_of_decodes hidle hi

theorem State.portCheck_of_failed (hrun : s.run = .failed) : s.portCheck = some .errFatal := by simp [State.portCheck, hrun]

theorem State.portCheck_of_stopped (hrun : s.run = .stopped) : s.portCheck = some .errStopped := by simp [State.portCheck, hrun]

/-- Settles O8: by the terminal check, and by the decoding where that passes. -/
theorem wordsRefusedBeforeTheirMeaning : Obligations.WordsRefusedBeforeTheirMeaning := by
  intro s rest w hl ha hidle hw
  rw [step_cmd hl ha hidle hw]
  refine ⟨fun hrun => ?_, fun hrun => ?_, fun e hrun he => ?_⟩
  · have hcheck : { s with agenda := rest, cmd := none }.portCheck = some .errFatal := State.portCheck_of_failed hrun
    exact runWord_of_portCheck hcheck
  · have hcheck : { s with agenda := rest, cmd := none }.portCheck = some .errStopped := State.portCheck_of_stopped hrun
    exact runWord_of_portCheck hcheck
  · exact runWord_of_error hrun he

/-- The step of the sequencer (R164). -/
theorem step_seq (hl : s.cfg.legal = true) (ha : s.agenda = .seq :: rest) :
    step s = exec s.seqPc.instr { s with agenda := rest } := step_of_agenda hl ha

/-- The step of the sequencer in a known phase. -/
theorem step_seq_of {p : Phase} (hl : s.cfg.legal = true) (ha : s.agenda = .seq :: rest) (hpc : s.seqPc = p) :
    step s = exec p.instr { s with agenda := rest } := hpc ▸ step_seq hl ha

/-- Settles O6: the code of `seq_pc` decodes to the instruction of its phase. -/
theorem stepRunsTheSequencerPhase : Obligations.StepRunsTheSequencerPhase := by
  intro s rest i hl ha hi
  rw [decode_code] at hi
  cases hi
  exact step_seq hl ha

/-- The producer's turn with a word in its list (R94). -/
theorem State.hostTurn_of_listed {w : CmdWord} {ws : List CmdWord} (hidle : s.host = .idle) (hc : s.cmd = none)
    (hws : s.hostWords = w :: ws) : s.hostTurn = { s with cmd := some w, hostWords := ws } := by
  simp [State.hostTurn, hidle, hc, hws]

/-- The producer's turn with its list used up (R46). -/
theorem State.hostTurn_of_free (hidle : s.host = .idle) (hc : s.cmd = none) (hws : s.hostWords = []) :
    s.hostTurn = { s with cmd := some (Config.freeWord s.freeCount), freeCount := s.freeCount + 1 } := by
  simp [State.hostTurn, hidle, hc, hws]

/-- The producer's turn where it may present nothing (R94). -/
theorem State.hostTurn_of_busy (h : s.host ≠ .idle ∨ s.cmd ≠ none) : s.hostTurn = s := by
  rcases s.hostTurn_cases with hsame | ⟨hidle, hc, -⟩
  · exact hsame
  · exact absurd h (by simp [hidle, hc])

/-- Settles O7: the turn of each of the three agents. -/
theorem otherAgentsTakeTheirTurn : Obligations.OtherAgentsTakeTheirTurn := by
  intro s rest hl
  refine ⟨step_of_agenda hl, step_of_agenda hl, fun w ws ha hidle hc hws => ?_, fun ha hidle hc hws => ?_, fun ha hbusy => ?_⟩
  · rw [step_of_agenda hl ha]
    exact congrArg _ (State.hostTurn_of_listed (s := { s with agenda := rest }) hidle hc hws)
  · rw [step_of_agenda hl ha]
    exact ⟨_, congrArg _ (State.hostTurn_of_free (s := { s with agenda := rest }) hidle hc hws)⟩
  · rw [step_of_agenda hl ha]
    exact congrArg _ (State.hostTurn_of_busy (s := { s with agenda := rest }) hbusy)

end Sys2Proof.Machine

/-! ## What the canvas commands write

An accepted drawing command patches the words of its cells (`State.drawn`), so what it leaves in a word is the patch of that word, bit
by bit: each pin of the patch takes the plane's bit of its channel's value, and every other bit is kept. -/

namespace Sys2Proof.Machine

/-- Settles O12: the checks pass, and out of range the effect is the response alone. -/
theorem setpixelOutOfRangeIsIgnored : Obligations.SetpixelOutOfRangeIsIgnored := by
  intro s f x y r g b ⟨hidle, hrun⟩ hw hout
  have hcheck : s.writeCheck f = none := State.writeCheck_eq_none.mpr ⟨hrun, hw⟩
  calc exec (.setpixel f x y r g b) s
    _ = outcomeOf _ := State.onPort_accept hidle hcheck
    _ = .next (s.respond .ok 0#16) := by rw [if_pos hout]; rfl

/-- The word after a patch of three pins: each pin takes the plane's bit of its own channel's value, the other bits are kept
(R136). -/
theorem getLsbD_mergePins {pins : Nat × Nat × Nat} (h : pinsSeparate pins) (w : Word) (vr vg vb p i : Nat) :
    ((w &&& ~~~pinsMask pins) ||| pinsBits pins vr vg vb p).getLsbD i =
      if i = pins.1 then vr.testBit p
      else if i = pins.2.1 then vg.testBit p
      else if i = pins.2.2 then vb.testBit p
      else w.getLsbD i := by
  by_cases hi : i ∈ [pins.1, pins.2.1, pins.2.2]
  · have hpin (ch : Nat × Nat) (hch : ch ∈ channels pins vr vg vb) (heq : i = ch.1) :
        ((w &&& ~~~pinsMask pins) ||| pinsBits pins vr vg vb p).getLsbD i = ch.2.testBit p := by
      rw [getLsbD_merge (v := ch.2.testBit p), if_pos (pinsMask_getLsbD h hi)]
      rw [pinsMask_getLsbD h hi, heq, pinsBits_getLsbD h hch, Bool.true_and]
    split_ifs with h1 h2 h3
    · exact hpin (pins.1, vr) (by simp) h1
    · exact hpin (pins.2.1, vg) (by simp) h2
    · exact hpin (pins.2.2, vb) (by simp) h3
    · exact absurd hi (by simp [h1, h2, h3])
  · have hmask : (pinsMask pins).getLsbD i = false := by
      by_contra hbit
      exact hi (mem_of_pinsMask_getLsbD (Bool.eq_true_of_not_eq_false hbit))
    have hbits : (pinsBits pins vr vg vb p).getLsbD i = false := by
      rw [← pinsMask_and_pinsBits, BitVec.getLsbD_and, hmask, Bool.false_and]
    rw [getLsbD_merge (v := false) (by rw [hbits, hmask, Bool.false_and]), hmask, if_neg Bool.false_ne_true]
    simp only [List.mem_cons, List.not_mem_nil, or_false, not_or] at hi
    rw [if_neg hi.1, if_neg hi.2.1, if_neg hi.2.2]

/-- Settles O11: the patches of `SETPIXEL`, one for each active plane, each read bit by bit. -/
theorem setpixelWritesItsCells : Obligations.SetpixelWritesItsCells := by
  intro s f x y r g b m pr pg pb hI ha hw hx hy hm hpins
  obtain rfl : m = mapValue s.cfg.n (s.settings f) := funext fun c => (hm c).trans (mapValue_eq _ _ c).symm
  have hhalf : (pr, pg, pb) = halfPins s.cfg y.toNat := hpins
  refine ⟨_, exec_setpixel_inRange hI r g b ha hw hx hy, rfl, fun p i hlow hp => ?_, fun a hno => ?_⟩
  · rw [State.respond_mem, Memory.read_patchAll_of_mem hI.memOk.1 _ (pixelPatches_distinct hx) _
      (List.mem_map_of_mem (mem_activePlanes.mpr ⟨hlow, hp⟩)),
      getLsbD_mergePins (halfPins_separate hI.legal y.toNat), ← hhalf]
  · refine Memory.read_patchAll_of_not_mem hI.memOk.1 _ a fun c hc haddr => ?_
    obtain ⟨p, hp, rfl⟩ := mem_pixelPatches.mp hc
    obtain ⟨hlow, hp⟩ := mem_activePlanes.mp hp
    exact hno p hlow hp haddr.symm

theorem upperPins_separate {c : Config} (h : c.legal = true) : pinsSeparate (upperPins c) := by
  rw [← halfPins_of_lt (legal_half h).1]
  exact halfPins_separate h 0

theorem lowerPins_separate {c : Config} (h : c.legal = true) : pinsSeparate (lowerPins c) := by
  rw [← halfPins_of_le le_rfl]
  exact halfPins_separate h c.half

/-- The patch of `FILL` is that of the upper half-panel and, after it, that of the lower (R140). -/
theorem merge_fillBits {c : Config} (h : c.legal = true) (w : Word) (vr vg vb p : Nat) :
    (w &&& ~~~colorMask) ||| fillBits c vr vg vb p =
      (((w &&& ~~~pinsMask (upperPins c)) ||| pinsBits (upperPins c) vr vg vb p) &&& ~~~pinsMask (lowerPins c)) |||
        pinsBits (lowerPins c) vr vg vb p := by
  have hlu : pinsMask (lowerPins c) &&& pinsMask (upperPins c) = 0#32 := (BitVec.and_comm _ _).trans (pinsMask_and_pinsMask h)
  have hkept : pinsMask (lowerPins c) &&& pinsBits (upperPins c) vr vg vb p = 0#32 :=
    pinsMask_and_pinsBits_of_disjoint hlu vr vg vb p
  rw [← pinsMask_or_pinsMask h, fillBits]
  apply BitVec.eq_of_getLsbD_eq
  intro i hi
  have hbit := congrArg (BitVec.getLsbD · i) hkept
  simp only [BitVec.getLsbD_and, BitVec.getLsbD_zero] at hbit
  simp only [BitVec.getLsbD_or, BitVec.getLsbD_and, BitVec.getLsbD_not, hi, decide_true, Bool.true_and]
  grind

/-- The word after a patch of `FILL`: both pins of a channel take the plane's bit of its value, the other bits are kept (R140). -/
theorem getLsbD_mergeFill {c : Config} (h : c.legal = true) (w : Word) (vr vg vb p i : Nat) :
    ((w &&& ~~~colorMask) ||| fillBits c vr vg vb p).getLsbD i =
      if i = c.pinR1 ∨ i = c.pinR2 then vr.testBit p
      else if i = c.pinG1 ∨ i = c.pinG2 then vg.testBit p
      else if i = c.pinB1 ∨ i = c.pinB2 then vb.testBit p
      else w.getLsbD i := by
  have hnodup := legal_pins_distinct h
  simp only [Config.colorPins, List.nodup_cons, List.mem_cons, List.not_mem_nil, or_false, not_or] at hnodup
  rw [merge_fillBits h, getLsbD_mergePins (lowerPins_separate h), getLsbD_mergePins (upperPins_separate h)]
  grind

/-- Settles O15: the patches of `FILL`, one for each cell of the active planes, each read bit by bit. -/
theorem fillWritesTheActivePlanes : Obligations.FillWritesTheActivePlanes := by
  intro s f r g b m hI ha hw hm
  obtain rfl : m = mapValue s.cfg.n (s.settings f) := funext fun c => (hm c).trans (mapValue_eq _ _ c).symm
  refine ⟨_, exec_fill hI r g b ha hw, rfl, fun d p x i hd hlow hp hx => ?_, fun a hno => ?_⟩
  · have hmem := mem_fillPatches (r := r) (g := g) (b := b) (f := f) |>.mpr
      ⟨d, p, x, ⟨hd, mem_activePlanes.mpr ⟨hlow, hp⟩, hx⟩, rfl⟩
    exact (congrArg (BitVec.getLsbD · i) (Memory.read_patchAll_of_mem hI.memOk.1 _ fillPatches_distinct _ hmem)).trans
      (getLsbD_mergeFill hI.legal _ _ _ _ p i)
  · refine Memory.read_patchAll_of_not_mem hI.memOk.1 _ a fun c hc haddr => ?_
    obtain ⟨d, p, x, ⟨hd, hp, hx⟩, rfl⟩ := mem_fillPatches.mp hc
    obtain ⟨hlow, hp⟩ := mem_activePlanes.mp hp
    exact hno d p x hd hlow hp hx haddr.symm

/-- An accepted `CLEAR` zeroes its frame (R142). -/
theorem exec_clear {s : State} (hI : Inv s) {f : FrameId} (ha : s.accepting) (hw : s.writable f) :
    exec (.clear f) s = .next (s.drawn (zeroPatches s.cfg f)) := State.onPort_draw hI ha hw _

/-- Settles O17: what zeroing a frame leaves at each address. -/
theorem clearZeroesTheFrame : Obligations.ClearZeroesTheFrame := by
  intro s f hI ha hw
  exact ⟨_, exec_clear hI ha hw, rfl, Memory.read_zeroPatches hI.memOk.1⟩

/-- Black maps to 0 in both modes (R124, R125). -/
theorem mapValue_zero (n : Nat) (st : FrameSettings) : mapValue n st 0#8 = 0 := by
  rw [mapValue_eq]
  split
  · exact lutCie_zero n _
  · simp [linMap]

/-- Black gives a word no bit. -/
theorem fillBits_zero (c : Config) (p : Nat) : fillBits c 0 0 0 p = 0#32 := by simp [fillBits, pinsBits, planeBit]

/-- At full depth every plane is active. -/
theorem mem_activePlanes_full {n : Nat} {k : BitVec 4} (hk : k.toNat = n) {p : Nat} : p ∈ activePlanes n k ↔ p < n := by
  rw [mem_activePlanes]
  omega

/-- At full depth `FILL` with black leaves what zeroing leaves: its words are colour bits only, and it clears these (R143). -/
theorem read_fillBlack_full {s : State} (hI : Inv s) {f : FrameId} (hf : s.created f)
    (hk : (s.settings f).pwmBits.toNat = s.cfg.n) (a : Nat) :
    (s.mem.patchAll (fillPatches s.cfg (s.settings f) f 0#8 0#8 0#8)).read a =
      if inFrame s.cfg f a then 0#32 else s.mem.read a := by
  rcases Memory.read_patchAll hI.memOk.1 (fillPatches s.cfg (s.settings f) f 0#8 0#8 0#8) fillPatches_distinct a with
    ⟨q, hq, rfl, hread⟩ | ⟨hno, hread⟩
  · have hin := (fillPatches_ok hI.legal q hq).1
    obtain ⟨d, p, x, -, rfl⟩ := mem_fillPatches.mp hq
    rw [hread, if_pos hin]
    simp only [mapValue_zero, fillBits_zero, BitVec.or_zero]
    exact hI.read_color hf hin
  · rw [hread, if_neg]
    intro hin
    obtain ⟨d, p, x, hd, hp, hx, rfl⟩ := exists_cell_of_inFrame hin
    exact hno _ (mem_fillPatches.mpr ⟨d, p, x, ⟨hd, (mem_activePlanes_full hk).mpr hp, hx⟩, rfl⟩) rfl

/-- `FILL` keeps the planes below the active depth (R139). -/
theorem read_fillPatches_skipped {s : State} (hI : Inv s) {f : FrameId} {r g b : BitVec 8} {d p x : Nat}
    (hp : p < s.cfg.n - (s.settings f).pwmBits.toNat) (hx : x < s.cfg.columns) :
    (s.mem.patchAll (fillPatches s.cfg (s.settings f) f r g b)).read (cellAddr s.cfg f.toNat d p x) =
      s.mem.read (cellAddr s.cfg f.toNat d p x) := by
  refine Memory.read_patchAll_of_not_mem hI.memOk.1 _ _ fun q hq haddr => ?_
  obtain ⟨d', p', x', ⟨-, hactive, hx'⟩, rfl⟩ := mem_fillPatches.mp hq
  obtain ⟨hlow, hp'⟩ := mem_activePlanes.mp hactive
  obtain ⟨-, rfl, -⟩ := cellAddr_inj hp' hx' (by omega) hx haddr
  omega

/-- Settles O18: at full depth both memories read alike and are canonical; below it the two reads of a skipped plane. -/
theorem clearAgainstFillWithBlack : Obligations.ClearAgainstFillWithBlack := by
  intro s f hI ha hw
  refine ⟨_, _, exec_clear hI ha hw, exec_fill hI 0#8 0#8 0#8 ha hw, fun hk => ?_, fun d p x hd hp hx => ⟨?_, ?_⟩⟩
  · refine Memory.ext_of_read (Memory.wf_patchAll hI.memOk.1 _) (Memory.wf_patchAll hI.memOk.1 _) fun a => ?_
    exact (Memory.read_zeroPatches hI.memOk.1 a).trans (read_fillBlack_full hI hw.1 hk a).symm
  · have hin : inFrame s.cfg f (cellAddr s.cfg f.toNat d p x) := inFrame_cell hd (by omega) hx
    exact (Memory.read_zeroPatches hI.memOk.1 _).trans (if_pos hin)
  · exact read_fillPatches_skipped hI hp hx

/-- An accepted settings command whose argument is in range writes the settings of its frame. -/
theorem State.onPort_setSettings {s : State} {f : FrameId} {P : Prop} [Decidable P] {effect : Except Fault State} (ha : s.accepting)
    (hw : s.writable f) (hP : ¬ P) :
    s.onPort ((s.writeCheck f).or (failIf (decide P) .failParam)) effect = outcomeOf effect := by
  have hframe : s.writeCheck f = none := State.writeCheck_eq_none.mpr ⟨ha.2, hw⟩
  exact State.onPort_accept ha.1 (by simp [hframe, hP])

/-- Settles O19: the argument passes its check, fits the field, and is written to the one frame. -/
theorem settingsTakeTheirArgument : Obligations.SettingsTakeTheirArgument := by
  intro s f v hl ha hw
  obtain ⟨-, -, -, ⟨-, hn⟩, -⟩ := (legal_iff _).mp hl
  have hother (st : FrameSettings) (g : FrameId) (hg : g ≠ f) :
      ((s.setSettings f st).respond .ok 0#16).settings g = s.settings g := s.settings_setSettings_ne f g st hg
  have hsame (st : FrameSettings) : ((s.setSettings f st).respond .ok 0#16).settings f = st := s.settings_setSettings_same f st
  refine ⟨fun h1 hv => ?_, fun h1 hv => ?_, fun hv => ?_⟩
  · refine ⟨_, State.onPort_setSettings ha hw (by omega), rfl, ?_, ?_, ?_, hother _⟩ <;> rw [hsame]
    exact (BitVec.toNat_setWidth ..).trans (Nat.mod_eq_of_lt (by omega))
  · refine ⟨_, State.onPort_setSettings ha hw (by omega), rfl, ?_, ?_, ?_, hother _⟩ <;> rw [hsame]
    exact (BitVec.toNat_setWidth ..).trans (Nat.mod_eq_of_lt (by omega))
  · refine ⟨_, State.onPort_setSettings ha hw (by omega), rfl, ?_, ?_, ?_, hother _⟩ <;> rw [hsame]
    change v.getLsbD 0 = true ↔ v.toNat = 1
    rw [BitVec.getLsbD, Nat.testBit_zero, decide_eq_true_eq]
    omega

/-- Settles O21: the response holds the value, which fits its 16 bits. -/
theorem queriesAnswerTheGeometry : Obligations.QueriesAnswerTheGeometry := by
  intro s hl ⟨hidle, hrun⟩
  obtain ⟨-, ⟨-, hcolumns⟩, -⟩ := (legal_iff _).mp hl
  obtain ⟨-, hhalf, -⟩ := legal_half hl
  have hrows := legal_totalRows hl
  have hcheck : s.portCheck = none := State.portCheck_eq_none.mpr hrun
  have hvalue (v : Nat) (hv : v < 2 ^ 16) : (s.respond .ok (BitVec.ofNat 16 v)).rsp.toNat = v :=
    (rspWord_ok_toNat _).trans (Nat.mod_eq_of_lt hv)
  exact ⟨⟨_, State.onPort_accept hidle hcheck, rfl, hvalue _ (by omega)⟩,
    ⟨_, State.onPort_accept hidle hcheck, rfl, hvalue _ (by omega)⟩⟩

end Sys2Proof.Machine

/-! ## Frame creation, the answers of the double buffer, and shutdown -/

namespace Sys2Proof.Machine

/-- Settles O22: the effect of an accepted `CREATEFRAME`, whose id is below the count of frames and so below 15. -/
theorem createframeMakesTheNextFrame : Obligations.CreateframeMakesTheNextFrame := by
  intro s hI ⟨hidle, hrun⟩ hleft
  obtain ⟨-, -, -, ⟨-, hn⟩, ⟨-, hframes⟩, -⟩ := (legal_iff _).mp hI.legal
  obtain ⟨-, hcount, -⟩ := hI.handoffOk
  have hcheck : s.portCheck.or (failIf (decide (s.numCreated.toNat = s.cfg.numFrames)) .errNoFrame) = none := by
    rw [State.portCheck_eq_none.mpr hrun]
    simp [hleft]
  have hpatch := (State.patchFrame_eq_ok (f := s.numCreated) (cs := zeroPatches s.cfg s.numCreated)).mpr
    ⟨Nat.lt_of_le_of_ne hcount hleft, rfl⟩
  refine ⟨_, (State.onPort_accept hidle hcheck).trans (congrArg (fun e => outcomeOf (Except.map _ e)) hpatch), rfl, ?_, ?_, ?_⟩
  · exact (rspWord_ok_toNat _).trans (BitVec.toNat_setWidth_of_le (by decide))
  · exact BitVec.toNat_add_of_lt (by simp; omega)
  · have hcreated := State.settings_setSettings_same s s.numCreated (FrameSettings.created s.cfg)
    refine ⟨congrArg _ hcreated, (congrArg (·.pwmBits.toNat) hcreated).trans (FrameSettings.created_pwmBits hI.legal),
      congrArg _ hcreated, fun g hg => s.settings_setSettings_ne s.numCreated g (FrameSettings.created s.cfg) hg,
      Memory.read_zeroPatches hI.memOk.1⟩

/-- Settles O23: with no frame left the check of the count is the first that fails. -/
theorem createframeIsExhausted : Obligations.CreateframeIsExhausted := by
  intro s ⟨hidle, hrun⟩ hfull
  have hcheck : s.portCheck.or (failIf (decide (s.numCreated.toNat = s.cfg.numFrames)) .errNoFrame) = some .errNoFrame := by
    rw [State.portCheck_eq_none.mpr hrun]
    simp [hfull]
  exact State.onPort_reject hidle hcheck

/-- The value of an `OK` response that is a frame id (R98). -/
theorem rspWord_frame_toNat (g : FrameId) : (rspWord .ok (g.setWidth 16)).toNat = g.toNat :=
  (rspWord_ok_toNat _).trans (BitVec.toNat_setWidth_of_le (by decide))

/-- `SWAPONVSYNC` of the null frame answers the active frame (R218). -/
theorem exec_peek (s : State) :
    exec (.swaponvsync 0xF#4) s = s.onPort s.portCheck (.ok (s.respond .ok (s.active.setWidth 16))) := by
  show execSwaponvsync 0xF#4 s = _
  exact if_pos rfl

/-- Settles O24: the null frame takes the branch of the peek. -/
theorem peekAnswersTheActiveFrame : Obligations.PeekAnswersTheActiveFrame := by
  intro s ⟨hidle, hrun⟩
  have hcheck : s.portCheck = none := State.portCheck_eq_none.mpr hrun
  exact ⟨_, (exec_peek s).trans (State.onPort_accept hidle hcheck), rfl, rspWord_frame_toNat _⟩

/-- The command executor's turn when the blocked swap was acknowledged (R220). -/
theorem State.cmdTurn_of_acknowledged {s : State} {g : FrameId} (hhost : s.host = .waitSwap) (hret : s.swapRet = some g) :
    s.cmdTurn = .next (s.completeSwap g) := by simp [State.cmdTurn, hhost, hret]

/-- The command executor's turn when the blocked shutdown has come to its end (R225). -/
theorem State.cmdTurn_of_stopped {s : State} (hhost : s.host = .waitStop) (hrun : s.run = .stopped) :
    s.cmdTurn = .next s.completeStop := by simp [State.cmdTurn, hhost, hrun]

/-- Settles O26: the pickup at `TOP`, then the completion of the swap that the invariant says is blocked. -/
theorem swapHandsBackTheOldFrame : Obligations.SwapHandsBackTheOldFrame := by
  intro s g rest hI hpc hstop hpending hagenda
  obtain ⟨-, -, hactive, hflight, -, -, hwait⟩ := hI.handoffOk
  obtain ⟨-, hne⟩ := hflight g hpending
  have hhost : s.host = .waitSwap := hwait.mpr (.inl (by simp [hpending]))
  let t : State := { s with agenda := .cmd :: rest, swapRet := some s.active, active := g, pending := none, seqD := 0#3,
                            seqPc := .rowClr }
  refine ⟨t, State.completeSwap { t with agenda := rest } s.active, ?_, ?_, rfl, rfl, rspWord_frame_toNat _, hne, hactive,
    hne.symm⟩
  · rw [step_seq_of hI.legal hagenda hpc]
    refine (exec_top_scan (s := { s with agenda := .cmd :: rest }) hstop).trans ?_
    rw [State.pickup_of_some (s := { s with agenda := .cmd :: rest }) hpending]
    rfl
  · rw [step_of_agenda (s := t) hI.legal rfl]
    exact State.cmdTurn_of_acknowledged hhost rfl

/-- Settles O27: the checks of the port pass. -/
theorem shutdownSetsTheStopFlag : Obligations.ShutdownSetsTheStopFlag := by
  intro s ⟨hidle, hrun⟩
  exact State.onPort_accept hidle (State.portCheck_eq_none.mpr hrun)

/-- The step that completes a blocked shutdown (R225). -/
theorem step_completeStop {s : State} {rest : List Agent} (hl : s.cfg.legal = true) (ha : s.agenda = .cmd :: rest)
    (hhost : s.host = .waitStop) (hrun : s.run = .stopped) : step s = .next (State.completeStop { s with agenda := rest }) :=
  (step_of_agenda hl ha).trans (State.cmdTurn_of_stopped (s := { s with agenda := rest }) hhost hrun)

/-- Settles O28: `TOP` goes to the teardown, the teardown clears the pins and stops, and the blocked shutdown completes. The timer is
quiescent at `TOP` and none of the three touches it. -/
theorem shutdownEndsDark : Obligations.ShutdownEndsDark := by
  intro s rest hI hpc hstop hagenda
  have hquiet : s.quiescent := hI.quiescent_of_dark (by rw [hpc]; rfl)
  obtain ⟨hscan, -, hblocked, -, -⟩ := hI.runOk
  have hrun : s.run = .scanning := hscan.mpr (by simp [hpc])
  have hhost : s.host = .waitStop := (hblocked hstop).resolve_left (by simp [hrun])
  have hdark (g : Word) : (g &&& ~~~allMask) &&& allMask = 0#32 := by
    rw [BitVec.and_assoc, BitVec.and_comm (~~~allMask), BitVec.and_not_self]; exact BitVec.and_zero
  obtain ⟨-, -, -, -, -, -, hall⟩ := masks_hex
  rw [← hall]
  have htop : step s = .next { s with agenda := .seq :: .cmd :: rest, seqPc := .teardown } :=
    (step_seq_of hI.legal hagenda hpc).trans (exec_top_stop hstop)
  have hteardown : step { s with agenda := .seq :: .cmd :: rest, seqPc := .teardown } =
      .next { s with agenda := .cmd :: rest, run := .stopped, seqPc := .halt, gpio := s.gpio &&& ~~~allMask,
                     trace := s.trace ++ [.gpioClr allMask] } :=
    (step_seq_of (s := { s with agenda := .seq :: .cmd :: rest, seqPc := .teardown }) hI.legal rfl rfl).trans rfl
  have hcomplete := step_completeStop (rest := rest)
    (s := { s with agenda := .cmd :: rest, run := .stopped, seqPc := .halt, gpio := s.gpio &&& ~~~allMask,
                   trace := s.trace ++ [.gpioClr allMask] }) hI.legal rfl hhost rfl
  exact ⟨_, _, _, htop, hteardown, hcomplete, rfl, hdark _, hquiet⟩

/-- Settles O30: `TEARDOWN` and `HALT` run in every state, and the mask of the one clear is that of R14. -/
theorem teardownClearsEveryPinAndHaltStays : Obligations.TeardownClearsEveryPinAndHaltStays := fun _ => ⟨rfl, rfl⟩

end Sys2Proof.Machine

/-! ## The table and the curve

Each branch of R122 is the quotient of two natural numbers whose value is that branch of the curve of R121, and the branches part at the
same products. -/

namespace Sys2Proof.Machine

/-- The curve's value is at most 8 where the product is at most 2040 (R121, R122). -/
theorem curve_linear_iff {b c : Nat} : ((c : ℚ) * b / 255 ≤ 8) ↔ c * b ≤ 2040 := by
  rw [div_le_iff₀ (by norm_num)]
  norm_num
  exact_mod_cast Iff.rfl

theorem cast_two_pow_sub_one (n : Nat) : ((2 ^ n - 1 : ℕ) : ℚ) = 2 ^ n - 1 := by
  rw [Nat.cast_sub Nat.one_le_two_pow]
  norm_num

/-- The linear part of the curve as a quotient (R121). -/
theorem cieReal_of_le {n b c : Nat} (h : c * b ≤ 2040) :
    cieReal n b c = (((2 ^ n - 1) * 10 * (c * b) : ℕ) : ℚ) / ((255 * 9023 : ℕ) : ℚ) := by
  rw [cieReal, if_pos (curve_linear_iff.mpr h), Nat.cast_mul, Nat.cast_mul, cast_two_pow_sub_one]
  push_cast
  ring

/-- The cubic part of the curve as a quotient (R121). -/
theorem cieReal_of_gt {n b c : Nat} (h : 2040 < c * b) :
    cieReal n b c = (((2 ^ n - 1) * (c * b + 4080) ^ 3 : ℕ) : ℚ) / ((29580 ^ 3 : ℕ) : ℚ) := by
  rw [cieReal, if_neg (fun hle => Nat.not_le.mpr h (curve_linear_iff.mp hle)), Nat.cast_mul, cast_two_pow_sub_one]
  push_cast
  ring

/-- Settles O31: the floor of a quotient of natural numbers is their integer quotient, in each branch. -/
theorem tableIsTheFloorOfTheCurve : Obligations.TableIsTheFloorOfTheCurve := by
  intro n b c _ _ _ _ _
  rcases Nat.lt_or_ge 2040 (c * b) with hc | hc
  · rw [cieReal_of_gt hc, lutCie_of_gt hc, Rat.floor_natCast_div_natCast, Int.natCast_ediv]
  · rw [cieReal_of_le hc, lutCie_of_le hc, Rat.floor_natCast_div_natCast, Int.natCast_ediv]

end Sys2Proof.Machine

/-! ## The writes of the waits and of `PULSE`, and the word of `COL_DATA` -/

namespace Sys2Proof.Machine

/-- Settles O46: the first by the enable bit, the second by the range, and with nothing to play no part of the tick writes. -/
theorem tickCornerCases : Obligations.TickCornerCases := by
  intro s
  refine ⟨State.tick_disabled, fun hen hr => ?_, fun hen hr hcur hhold hfifo => ?_⟩
  · simp [State.tick, hen, hr]
  · have hload : s.tickLoad = s := by simp [State.tickLoad, hcur, hhold, hfifo]
    have hrefill : s.tickRefill = s := by simp [State.tickRefill, hhold, hfifo]
    have hplay : s.tickPlay = s := by simp [State.tickPlay, hcur]
    rw [State.tick_enabled hen hr, hload, hrefill, hplay]

/-! ### Durations -/

theorem isSplit_iff {c : Config} {p : Nat} : isSplit c p = true ↔ c.widthLimit < c.baseTicks * 2 ^ p := decide_eq_true_iff

/-- A duration within the width limit is one entry (R192). -/
theorem pulse_of_le {c : Config} {p : Nat} (h : c.baseTicks * 2 ^ p ≤ c.widthLimit) :
    pulseRange c p = c.baseTicks * 2 ^ p ∧ pulseCount c p = 1 := by
  have hsplit : isSplit c p = false := Bool.eq_false_iff.mpr fun hs => Nat.not_le.mpr (isSplit_iff.mp hs) h
  simp [pulseRange, pulseCount, hsplit, pulseDur]

/-- A longer one is eight equal entries, and nothing is lost to rounding (R7, R192). -/
theorem pulse_of_gt {c : Config} (hl : c.legal = true) {p : Nat} (hp : p < c.n) (h : c.widthLimit < c.baseTicks * 2 ^ p) :
    pulseRange c p * 8 = c.baseTicks * 2 ^ p ∧ pulseCount c p = 8 := by
  obtain ⟨-, -, -, -, -, ⟨hfactor, -⟩, -⟩ := (legal_iff c).mp hl
  obtain ⟨-, -, hmod⟩ := legal_duration hl hp
  have hrange : pulseRange c p = c.baseTicks * 2 ^ p / 8 := by simp [pulseRange, isSplit_iff.mpr h, pulseDur, hfactor]
  have hcount : pulseCount c p = 8 := by simp [pulseCount, isSplit_iff.mpr h, hfactor]
  exact ⟨hrange ▸ Nat.div_mul_cancel (Nat.dvd_of_mod_eq_zero (hmod h)), hcount⟩

/-- The entries of a plane add up to its duration (R192, R203). -/
theorem pulseCount_mul_pulseRange {c : Config} (hl : c.legal = true) {p : Nat} (hp : p < c.n) :
    pulseCount c p * pulseRange c p = c.baseTicks * 2 ^ p := by
  rcases Nat.lt_or_ge c.widthLimit (c.baseTicks * 2 ^ p) with h | h
  · obtain ⟨hrange, hcount⟩ := pulse_of_gt hl hp h
    rw [hcount, Nat.mul_comm, hrange]
  · obtain ⟨hrange, hcount⟩ := pulse_of_le h
    rw [hcount, Nat.one_mul, hrange]

/-- The range fits the 32 bits of its register (R7). -/
theorem pulseRange_lt {c : Config} (hl : c.legal = true) {p : Nat} (hp : p < c.n) : pulseRange c p < 2 ^ 32 := by
  obtain ⟨hlt, -, -⟩ := legal_duration hl hp
  obtain ⟨hcount, -⟩ := pulseCount_bounds hl p
  calc pulseRange c p ≤ pulseCount c p * pulseRange c p := Nat.le_mul_of_pos_left _ hcount
    _ < 2 ^ 32 := pulseCount_mul_pulseRange hl hp ▸ hlt

theorem pulseRange_toNat {c : Config} (hl : c.legal = true) {p : Nat} (hp : p < c.n) :
    (BitVec.ofNat 32 (pulseRange c p)).toNat = pulseRange c p := Nat.mod_eq_of_lt (pulseRange_lt hl hp)

/-- The on-time of a plane is its entries, each as long as the range (R192, R203). -/
theorem onTime_eq (c : Config) (p : Nat) : onTime c p = pulseCount c p * pulseRange c p := by
  unfold onTime pulseCount pulseRange
  split <;> simp

/-- Settles O49: the entries add up to the duration. -/
theorem onTimeIsTheDuration : Obligations.OnTimeIsTheDuration := by
  intro c p hl hp
  have hdur {q : Nat} (hq : q < c.n) : onTime c q = c.baseTicks * 2 ^ q := by
    rw [onTime_eq, pulseCount_mul_pulseRange hl hq]
  refine ⟨hdur hp, fun hp' => ?_⟩
  rw [hdur hp', hdur hp, pow_succ]
  ring

/-! ### `PULSE` -/

/-- The state in which `SendPulse` leaves the timer of a plane whose FIFO was empty (R193). -/
def State.pulseSent (s : State) : State :=
  { s with
    ptRng := BitVec.ofNat 32 (pulseRange s.cfg s.seqP.toNat)
    ptFifo := pulseEntries s.cfg s.seqP.toNat ++ [0#32, 0#32]
    ptEn := true
    ptStart := s.t1mhz
    ptHint := Config.freeHint s.freeCount s.seqP
    freeCount := s.freeCount + 1
    trace := s.trace ++ (pulseWrites s.cfg s.seqP.toNat).map .ptWrite }

/-- A legal FIFO has room for the entries and the sentinels (R7, R197). -/
theorem legal_fifo_room {c : Config} (hl : c.legal = true) (p : Nat) : pulseCount c p + 2 ≤ c.fifoDepth := by
  obtain ⟨-, -, -, -, -, ⟨hfactor, -⟩, hroom, -⟩ := (legal_iff c).mp hl
  obtain ⟨-, hcount⟩ := pulseCount_bounds hl p
  omega

/-- `PULSE` with an empty FIFO completes (R175). -/
theorem exec_pulse {s : State} (hl : s.cfg.legal = true) (hfifo : s.ptFifo = []) :
    exec .pulse s = .next s.pulseSent.afterPulse :=
  congrArg (fun e => outcomeOf (Except.map State.afterPulse e)) (State.sendPulse_eq s.seqP hfifo (legal_fifo_room hl _))

theorem State.afterPulse_last {s : State} (h : s.seqP.toNat = s.cfg.n - 1) : s.afterPulse = s.goto .rowWait := if_pos h

theorem State.afterPulse_step {s : State} (h : s.seqP.toNat ≠ s.cfg.n - 1) :
    s.afterPulse = { s with seqP := s.seqP + 1#4, seqX := 0#16 }.goto .colClr := if_neg h

/-- The next plane's number fits its register (R6, R33). -/
theorem seqP_succ_toNat {s : State} (hl : s.cfg.legal = true) (hp : s.seqP.toNat < s.cfg.n) :
    (s.seqP + 1#4).toNat = s.seqP.toNat + 1 := by
  obtain ⟨-, -, -, ⟨-, hn⟩, -⟩ := (legal_iff _).mp hl
  exact BitVec.toNat_add_of_lt (by simp; omega)

/-- The events of `SendPulse`, by what it leaves in the timer (R193). -/
theorem pulseWrites_events (c : Config) (p : Nat) :
    (pulseWrites c p).map Event.ptWrite = .ptWrite (.rng (BitVec.ofNat 32 (pulseRange c p))) ::
      ((pulseEntries c p ++ [0#32, 0#32]).map fun e => .ptWrite (.fifo e)) ++ [.ptWrite (.ctl .ctlRun)] := by
  simp [pulseWrites]

/-- Settles O40: the timer's registers as `SendPulse` leaves them, then the plane by whether it is the last. -/
theorem pulseProgramsTheTimer : Obligations.PulseProgramsTheTimer := by
  intro s hl hfifo hp
  have hrange := pulseRange_toNat hl hp
  refine ⟨_, exec_pulse hl hfifo, ?_, fun hle => ?_, fun hgt => ?_, ?_, fun hlast => ?_, fun hstep => ?_⟩
  · rw [State.afterPulse_frame]
    rfl
  · obtain ⟨hdur, hcount⟩ := pulse_of_le hle
    rw [State.afterPulse_frame]
    refine ⟨hrange.trans hdur, ?_⟩
    simp [State.pulseSent, pulseEntries, hcount]
  · obtain ⟨hdur, hcount⟩ := pulse_of_gt hl hp hgt
    rw [State.afterPulse_frame]
    refine ⟨(congrArg (· * 8) hrange).trans hdur, ?_⟩
    simp only [State.pulseSent, pulseEntries, hcount]
  · rw [State.afterPulse_frame]
    exact (congrArg (s.trace ++ ·) (pulseWrites_events _ _)).trans (List.append_assoc ..).symm
  · rw [State.afterPulse_last (s := s.pulseSent) hlast]
    exact ⟨rfl, rfl, rfl⟩
  · rw [State.afterPulse_step (s := s.pulseSent) hstep]
    exact ⟨seqP_succ_toNat hl hp, rfl, rfl⟩

/-! ### The waits -/

theorem exec_planeWait_busy {s : State} (h : s.ptFifo ≠ []) : exec .planeWait s = .next s := by
  show execPlaneWait s = _
  rw [execPlaneWait, State.waitPulseFinished_eq_none.mpr h]

theorem exec_planeWait_done {s : State} (h : s.ptFifo = []) :
    exec .planeWait s = .next ((s.ptControl .ctlQuiet).goto .strobeSet) := by
  show execPlaneWait s = _
  rw [execPlaneWait, State.waitPulseFinished_eq_some.mpr ⟨h, rfl⟩]

theorem exec_rowWait_busy {s : State} (h : s.ptFifo ≠ []) : exec .rowWait s = .next s := by
  show execRowWait s = _
  rw [execRowWait, State.waitPulseFinished_eq_none.mpr h]

theorem exec_rowWait_done {s : State} (h : s.ptFifo = []) :
    exec .rowWait s = .next (s.ptControl .ctlQuiet).afterRow := by
  show execRowWait s = _
  rw [execRowWait, State.waitPulseFinished_eq_some.mpr ⟨h, rfl⟩]

theorem State.afterRow_last {s : State} (h : s.seqD.toNat = s.cfg.half - 1) : s.afterRow = s.goto .top := if_pos h

theorem State.afterRow_step {s : State} (h : s.seqD.toNat ≠ s.cfg.half - 1) :
    s.afterRow = { s with seqD := s.seqD + 1#3 }.goto .rowClr := if_neg h

/-- The next half-row's number fits its register (R6, R33). -/
theorem seqD_succ_toNat {s : State} (hl : s.cfg.legal = true) (hd : s.seqD.toNat < s.cfg.half)
    (hstep : s.seqD.toNat ≠ s.cfg.half - 1) : (s.seqD + 1#3).toNat = s.seqD.toNat + 1 := by
  obtain ⟨-, hhalf, -⟩ := legal_half hl
  exact BitVec.toNat_add_of_lt (by simp only [BitVec.toNat_ofNat]; omega)

/-- Settles O39: by whether the FIFO is empty; the end of the half-row by whether it is the last. -/
theorem waitsEndWhenTheFifoIsEmpty : Obligations.WaitsEndWhenTheFifoIsEmpty := by
  intro s hl hd
  refine ⟨fun hbusy => ⟨exec_planeWait_busy hbusy, exec_rowWait_busy hbusy⟩, fun hempty => ⟨⟨_, exec_planeWait_done hempty, rfl⟩,
    _, exec_rowWait_done hempty, ?_, fun hlast => ?_, fun hstep => ?_⟩⟩
  · rw [State.afterRow_frame]
    rfl
  · rw [State.afterRow_last (s := s.ptControl .ctlQuiet) hlast]
    exact ⟨rfl, rfl⟩
  · rw [State.afterRow_step (s := s.ptControl .ctlQuiet) hstep]
    exact ⟨seqD_succ_toNat hl hd hstep, rfl⟩

/-! ### `COL_DATA` -/

/-- The address of the word that `COL_DATA` reads (R61, R169). -/
abbrev State.scanAddr (s : State) : Nat := cellAddr s.cfg s.active.toNat s.seqD.toNat s.seqP.toNat s.seqX.toNat

/-- `COL_DATA` drives the word of a cell that exists (R169). -/
theorem exec_colData {s : State} (ha : s.active.toNat < s.cfg.numFrames) (hd : s.seqD.toNat < s.cfg.half)
    (hp : s.seqP.toNat < s.cfg.n) (hx : s.seqX.toNat < s.cfg.columns) :
    exec .colData s = .next ((s.gpioSet (s.mem.read s.scanAddr &&& colorMask)).goto .colClk) :=
  congrArg (fun e => outcomeOf (Except.map _ e)) (State.readCell_eq_ok.mpr ⟨⟨ha, hd, hp, hx⟩, rfl⟩)

/-- A word of colour bits only is its own colour bits. -/
theorem and_colorMask {w : Word} (h : w &&& ~~~colorMask = 0#32) : w &&& colorMask = w := by
  calc w &&& colorMask = w &&& colorMask ||| w &&& ~~~colorMask := by rw [h, BitVec.or_zero]
    _ = w := by rw [← BitVec.and_or_distrib_left, BitVec.or_not_self, BitVec.and_allOnes]

/-- Settles O37: the active frame is created, so its cell exists and its words are colour bits only. -/
theorem colDataDrivesTheStoredWord : Obligations.ColDataDrivesTheStoredWord := by
  intro s hI
  obtain ⟨-, -, hactive, -⟩ := hI.handoffOk
  obtain ⟨hd, hp, hx, -⟩ := hI.countersOk
  have hcolor : s.mem.read s.scanAddr &&& ~~~colorMask = 0#32 := hI.read_color hactive (inFrame_cell hd hp hx)
  have hexec := exec_colData (hI.frame_lt hactive) hd hp hx
  rw [and_colorMask hcolor] at hexec
  exact ⟨_, rfl, hcolor, hexec⟩

end Sys2Proof.Machine

/-! ## What a command and what a phase may change

`CmdEffect` lists all that a command can make of a state, guards included; `exec_cmd_effect` says that it is all. What no command
changes, and what every command keeps, are then seven small cases. The phases have one inversion lemma each. -/

namespace Sys2Proof.Machine

/-- The state in which an accepted `CREATEFRAME` leaves the block (R216). -/
def State.frameCreated (s : State) : State :=
  { State.setSettings { s with mem := s.mem.patchAll (zeroPatches s.cfg s.numCreated) } s.numCreated (FrameSettings.created s.cfg) with
    numCreated := s.numCreated + 1#4 }.respond .ok (s.numCreated.setWidth 16)

/-- The state in which an accepted settings command leaves the block (R144, R146, R148). -/
def State.configured (s : State) (f : FrameId) (st : FrameSettings) : State := (s.setSettings f st).respond .ok 0#16

/-- All that a command can make of a state (R135 to R151, R216 to R224). -/
inductive CmdEffect (s : State) : State → Prop
  /-- The port is blocked (R31). -/
  | same : CmdEffect s s
  /-- A response and nothing else: a rejection, a query, a peek (R150, R218, R241). -/
  | answer (st : Status) (v : BitVec 16) : CmdEffect s (s.respond st v)
  /-- Words of a frame the producer may write are patched with colour bits (R136, R140, R142). -/
  | draw (f : FrameId) (cs : List CellPatch) (ha : s.accepting) (hw : s.writable f)
      (hcs : s.cfg.legal = true → ∀ c ∈ cs, inFrame s.cfg f c.addr ∧ c.bits &&& ~~~colorMask = 0#32) : CmdEffect s (s.drawn cs)
  /-- A legal setting of a frame the producer may write (R144, R146, R148). -/
  | configure (f : FrameId) (st : FrameSettings) (ha : s.accepting) (hw : s.writable f)
      (hst : s.cfg.legal = true → (s.settings f).ok s.cfg → st.ok s.cfg) : CmdEffect s (s.configured f st)
  /-- The next frame, where one is left (R216). -/
  | create (ha : s.accepting) (hleft : s.numCreated.toNat < s.cfg.numFrames) : CmdEffect s s.frameCreated
  /-- A swap of a frame the producer may write (R219). -/
  | publish (f : FrameId) (ha : s.accepting) (hw : s.writable f) : CmdEffect s { s with pending := some f, host := .waitSwap }
  /-- Shutdown (R224). -/
  | stop (ha : s.accepting) : CmdEffect s { s with stopFlag := true, host := .waitStop }

/-- At the port a command is refused or ignored, or it has its effect. -/
theorem State.onPort_effect {s t : State} {check : Option Status} {effect : Except Fault State}
    (h : s.onPort check effect = .next t) (he : s.host = .idle → check = none → effect = .ok t → CmdEffect s t) : CmdEffect s t := by
  rcases State.onPort_cases h with ⟨-, rfl⟩ | ⟨-, st, -, rfl⟩ | ⟨hidle, hcheck, hok⟩
  · exact .same
  · exact .answer st 0#16
  · exact he hidle hcheck hok

/-- Patching a frame and answering, where it answers at all, gives the drawn state. -/
theorem State.patchFrame_respond_eq_ok {s t : State} {f : FrameId} {cs : List CellPatch}
    (h : (s.patchFrame f cs).map (·.respond .ok 0#16) = .ok t) : t = s.drawn cs := by
  cases hv : s.patchFrame f cs with
  | error e => rw [hv] at h; cases h
  | ok v =>
    rw [hv] at h
    cases h
    obtain ⟨-, rfl⟩ := State.patchFrame_eq_ok.mp hv
    rfl

/-- A drawing command draws or is refused. -/
theorem State.onPort_draw_effect {s t : State} {f : FrameId} {cs : List CellPatch}
    (h : s.onPort (s.writeCheck f) ((s.patchFrame f cs).map (·.respond .ok 0#16)) = .next t)
    (hcs : s.cfg.legal = true → ∀ c ∈ cs, inFrame s.cfg f c.addr ∧ c.bits &&& ~~~colorMask = 0#32) : CmdEffect s t :=
  State.onPort_effect h fun hidle hcheck hok => by
    obtain ⟨hrun, hw⟩ := State.writeCheck_eq_none.mp hcheck
    rw [State.patchFrame_respond_eq_ok hok]
    exact .draw f cs ⟨hidle, hrun⟩ hw hcs

/-- A settings command writes its setting or is refused. -/
theorem State.onPort_configure_effect {s t : State} {f : FrameId} {st : FrameSettings} {P : Prop} [Decidable P]
    (h : s.onPort ((s.writeCheck f).or (failIf (decide P) .failParam)) (.ok (s.configured f st)) = .next t)
    (hst : ¬ P → s.cfg.legal = true → (s.settings f).ok s.cfg → st.ok s.cfg) : CmdEffect s t :=
  State.onPort_effect h fun hidle hcheck hok => by
    cases hok
    obtain ⟨hframe, hrange⟩ := Option.or_eq_none_iff.mp hcheck
    obtain ⟨hrun, hw⟩ := State.writeCheck_eq_none.mp hframe
    exact .configure f st ⟨hidle, hrun⟩ hw (hst (of_decide_eq_false (failIf_eq_none.mp hrange)))

/-- A command does what `CmdEffect` lists. -/
theorem exec_cmd_effect {i : Instr} {s t : State} (hi : i.format = .cmd) (h : exec i s = .next t) : CmdEffect s t := by
  cases i with
  | setpixel f x y r g b =>
    refine State.onPort_effect h fun hidle hcheck hok => ?_
    obtain ⟨hrun, hw⟩ := State.writeCheck_eq_none.mp hcheck
    split at hok
    · cases hok
      exact .answer .ok 0#16
    · rename_i hinside
      rw [State.patchFrame_respond_eq_ok hok]
      exact .draw f _ ⟨hidle, hrun⟩ hw fun hl => pixelPatches_ok hl (by omega)
  | fill f r g b => exact State.onPort_draw_effect h fun hl => fillPatches_ok hl
  | clear f => exact State.onPort_draw_effect h fun _ => zeroPatches_ok
  | setpwmbits f v =>
    refine State.onPort_configure_effect h fun hrange hl ⟨hb1, hb2, _, _⟩ => ⟨hb1, hb2, ?_⟩
    obtain ⟨-, -, -, ⟨-, hn⟩, -⟩ := (legal_iff _).mp hl
    have hfits : (v.setWidth 4).toNat = v.toNat := (BitVec.toNat_setWidth ..).trans (Nat.mod_eq_of_lt (by omega))
    simp only [hfits]
    omega
  | setbrightness f v =>
    refine State.onPort_configure_effect h fun hrange _ ⟨_, _, hp1, hp2⟩ => ?_
    have hfits : (v.setWidth 7).toNat = v.toNat := (BitVec.toNat_setWidth ..).trans (Nat.mod_eq_of_lt (by omega))
    simp only [FrameSettings.ok, hfits]
    omega
  | setlumcorrect f v => exact State.onPort_configure_effect h fun _ _ hok => hok
  | width => exact State.onPort_effect h fun _ _ hok => by cases hok; exact .answer _ _
  | height => exact State.onPort_effect h fun _ _ hok => by cases hok; exact .answer _ _
  | createframe =>
    refine State.onPort_effect h fun hidle hcheck hok => ?_
    obtain ⟨hport, -⟩ := Option.or_eq_none_iff.mp hcheck
    cases hv : s.patchFrame s.numCreated (zeroPatches s.cfg s.numCreated) with
    | error e => rw [hv] at hok; cases hok
    | ok v =>
      rw [hv] at hok
      cases hok
      obtain ⟨hleft, rfl⟩ := State.patchFrame_eq_ok.mp hv
      exact .create ⟨hidle, State.portCheck_eq_none.mp hport⟩ hleft
  | swaponvsync f =>
    by_cases hf : f = 0xF#4
    · subst hf
      rw [exec_peek] at h
      exact State.onPort_effect h fun _ _ hok => by cases hok; exact .answer _ _
    · rw [exec_swaponvsync_of_ne_null hf] at h
      refine State.onPort_effect h fun hidle hcheck hok => ?_
      cases hok
      obtain ⟨hrun, hw⟩ := State.writeCheck_eq_none.mp hcheck
      exact .publish f ⟨hidle, hrun⟩ hw
  | shutdown =>
    refine State.onPort_effect h fun hidle hcheck hok => ?_
    cases hok
    exact .stop ⟨hidle, State.portCheck_eq_none.mp hcheck⟩
  | _ => cases hi

/-- Settles O57: none of the effects of a command touches them. -/
theorem commandsNeverTouchTheScan : Obligations.CommandsNeverTouchTheScan := by
  intro i s t hi h
  cases exec_cmd_effect hi h <;> rfl

/-- Settles O58: by the phase; `SendPulse`, the pickup and the ends of a pulse and of a half-row write only what their frames say. -/
theorem phasesNeverTouchTheFrames : Obligations.PhasesNeverTouchTheFrames := by
  intro i s t hi h
  obtain ⟨p, rfl⟩ := exists_phase_of_format hi
  cases p with
  | top =>
    rcases exec_top_next h with ⟨-, rfl⟩ | ⟨-, rfl⟩
    · rfl
    · rw [State.pickup_frame]
      rfl
  | rowClr | rowSet | colClr | planeClr | strobeSet | strobeClr | teardown | halt =>
    cases h
    rfl
  | colData =>
    obtain ⟨w, -, rfl⟩ := exec_colData_next h
    rfl
  | colClk =>
    by_cases hlast : s.seqX.toNat = s.cfg.columns - 1
    · cases (exec_colClk_last hlast).symm.trans h
      rfl
    · cases (exec_colClk_step hlast).symm.trans h
      rfl
  | planeWait =>
    rcases exec_planeWait_next h with ⟨-, rfl⟩ | ⟨-, rfl⟩ <;> rfl
  | pulse =>
    obtain ⟨u, hu, rfl⟩ := exec_pulse_next h
    obtain ⟨hframe, -⟩ := State.sendPulse_frame hu
    rw [State.afterPulse_frame, hframe]
  | rowWait =>
    rcases exec_rowWait_next h with ⟨-, rfl⟩ | ⟨-, rfl⟩
    · rfl
    · rw [State.afterRow_frame]
      rfl

/-- A step is the turn of an agent in a state that differs in the turn list and the free-value counter only. -/
theorem step_turn {s t : State} (h : step s = .next t) :
    ∃ a ag n, State.turn { s with agenda := ag, freeCount := n } a = .next t := by
  obtain ⟨-, hturn⟩ := step_next h
  rw [State.takeTurn_frame] at hturn
  exact ⟨_, _, _, hturn⟩

/-- All that the turn of an agent can be: the producer's, a tick, a count, a phase, a command, a refused word, a completion, or
nothing (R10). -/
inductive TurnEffect (s : State) : State → Prop
  | same : TurnEffect s s
  | present (w : CmdWord) (ws : List CmdWord) (n : Nat) : TurnEffect s { s with cmd := some w, hostWords := ws, freeCount := n }
  | count : TurnEffect s s.t1mTurn
  | tick (t : State) (h : s.tick = .ok t) : TurnEffect s t
  | phase (t : State) (h : exec s.seqPc.instr s = .next t) : TurnEffect s t
  | command (t : State) (hidle : s.host = .idle) (h : CmdEffect { s with cmd := none } t) : TurnEffect s t
  | completeSwap (g : FrameId) (hhost : s.host = .waitSwap) (hret : s.swapRet = some g) : TurnEffect s (s.completeSwap g)
  | completeStop (hhost : s.host = .waitStop) (hrun : s.run = .stopped) : TurnEffect s s.completeStop

theorem State.cmdTurn_effect {s t : State} (h : s.cmdTurn = .next t) : TurnEffect s t := by
  rcases State.cmdTurn_cases h with rfl | ⟨hidle, w, -, hw⟩ | ⟨hhost, g, hg, rfl⟩ | ⟨hhost, hrun, rfl⟩
  · exact .same
  · rcases runWord_cases hw with ⟨st, rfl⟩ | ⟨-, i, hi, hexec⟩
    · exact .command _ hidle (.answer st 0#16)
    · exact .command t hidle (exec_cmd_effect (decodeCmd_format hi) hexec)
  · exact .completeSwap g hhost hg
  · exact .completeStop hhost hrun

/-- The turn of an agent does what `TurnEffect` lists. -/
theorem State.turn_effect {s t : State} {a : Agent} (h : s.turn a = .next t) : TurnEffect s t := by
  cases a with
  | host =>
    cases h
    rcases s.hostTurn_cases with hsame | ⟨-, -, w, ws, n, hpresent⟩
    · rw [hsame]
      exact .same
    · rw [hpresent]
      exact .present w ws n
  | cmd => exact State.cmdTurn_effect h
  | seq => exact .phase t h
  | pt => exact .tick t (outcomeOf_eq_next.mp h)
  | t1m =>
    cases h
    exact .count

/-- A step does what `TurnEffect` lists, the turn list and the free-value counter aside. -/
theorem step_effect {s t : State} (h : step s = .next t) : ∃ ag n, TurnEffect { s with agenda := ag, freeCount := n } t := by
  obtain ⟨a, ag, n, hturn⟩ := step_turn h
  exact ⟨ag, n, State.turn_effect hturn⟩

/-- No turn writes the configuration. -/
theorem TurnEffect.cfg {s t : State} (h : TurnEffect s t) : t.cfg = s.cfg := by
  cases h with
  | same | present | count | completeSwap | completeStop => rfl
  | tick t h => rw [State.tick_frame h]
  | phase t h =>
    have hphase : s.seqPc.instr.format = .seqPhase := by cases s.seqPc <;> rfl
    rw [phasesNeverTouchTheFrames _ s t hphase h]
  | command t _ h => cases h <;> rfl

/-- Settles O60: by the turn; an illegal record is refused before any turn is taken. -/
theorem configurationIsConstant : Obligations.ConfigurationIsConstant := by
  refine ⟨fun s t h => ?_, fun s hl => ?_⟩
  · obtain ⟨_, _, heffect⟩ := step_effect h
    exact heffect.cfg
  · simp [step, hl]

end Sys2Proof.Machine

/-! ## The tick

A tick plays one tick of an entry: of the player's, or else of the one it loads from the holding stage or the FIFO. `State.played` is the
timer after it. -/

namespace Sys2Proof.Machine

/-- The timer after one tick of the pair `c` was played, with the given holding stage and FIFO (R200). -/
def State.played (s : State) (c : Player) (hold : Option Word) (fifo : List Word) : State :=
  { s with ptFifo := fifo, ptHold := hold, ptCur := c.after, oe := decide (0#32 < c.on) }

variable {s : State}

/-- A tick with the player loaded, where the holding stage needs no refill (R200). -/
theorem State.tick_of_player {c : Player} (hen : s.ptEn = true) (hr : s.ptRng ≠ 0#32) (hcur : s.ptCur = some c)
    (hstay : s.ptHold ≠ none ∨ s.ptFifo = []) : s.tick = .ok (s.played c s.ptHold s.ptFifo) := by
  have hload : s.tickLoad = s := by simp [State.tickLoad, hcur]
  have hrefill : s.tickRefill = s := by
    unfold State.tickRefill
    split
    · rfl
    · rename_i hhold
      rw [hstay.resolve_left (by simp [hhold])]
  rw [State.tick_enabled hen hr, hload, hrefill]
  simp [State.tickPlay, hcur, State.played]

/-- A tick with the player loaded that refills the holding stage (R200). -/
theorem State.tick_of_player_refill {c : Player} {e : Word} {q : List Word} (hen : s.ptEn = true) (hr : s.ptRng ≠ 0#32)
    (hcur : s.ptCur = some c) (hhold : s.ptHold = none) (hfifo : s.ptFifo = e :: q) :
    s.tick = .ok (s.played c (some e) q) := by
  have hload : s.tickLoad = s := by simp [State.tickLoad, hcur]
  rw [State.tick_enabled hen hr, hload]
  simp [State.tickRefill, State.tickPlay, State.played, hhold, hfifo, hcur]

/-- A tick that loads the player from the holding stage and refills that (R200). -/
theorem State.tick_of_hold {e : Word} (hen : s.ptEn = true) (hr : s.ptRng ≠ 0#32) (hcur : s.ptCur = none)
    (hhold : s.ptHold = some e) : s.tick = .ok (s.played (playerOf e s.ptRng) s.ptFifo.head? s.ptFifo.tail) := by
  have hload : s.tickLoad = { s with ptCur := some (playerOf e s.ptRng), ptHold := none } := by
    simp [State.tickLoad, hcur, hhold]
  rw [State.tick_enabled hen hr, hload]
  cases s.ptFifo <;> simp [State.tickRefill, State.tickPlay, State.played]

/-- A tick that loads the player from the FIFO and fills the holding stage (R200). -/
theorem State.tick_of_fifo {e : Word} {q : List Word} (hen : s.ptEn = true) (hr : s.ptRng ≠ 0#32) (hcur : s.ptCur = none)
    (hhold : s.ptHold = none) (hfifo : s.ptFifo = e :: q) :
    s.tick = .ok (s.played (playerOf e s.ptRng) q.head? q.tail) := by
  have hload : s.tickLoad = { s with ptCur := some (playerOf e s.ptRng), ptFifo := q } := by
    simp [State.tickLoad, hcur, hhold, hfifo]
  rw [State.tick_enabled hen hr, hload]
  cases q <;> simp [State.tickRefill, State.tickPlay, State.played, hhold]

/-- A tick with nothing to play (R200). -/
theorem State.tick_of_empty (hen : s.ptEn = true) (hr : s.ptRng ≠ 0#32) (hcur : s.ptCur = none) (hhold : s.ptHold = none)
    (hfifo : s.ptFifo = []) : s.tick = .ok s := (tickCornerCases s).2.2 hen hr hcur hhold hfifo

/-! ### The player -/

/-- A pair that can be played: no more active ticks than its period, and at least one tick (R37). -/
abbrev Player.ok (c : Player) : Prop := c.on ≤ c.per ∧ 1#32 ≤ c.per

/-- The pair for an entry is one (R200). -/
theorem playerOf_ok {r : Word} (hr : r ≠ 0#32) (e : Word) : (playerOf e r).ok := by
  have hpos : 1#32 ≤ r := by bv_omega
  unfold playerOf
  split
  · rename_i hle; exact ⟨hle, hpos⟩
  · exact ⟨BitVec.le_refl r, hpos⟩

/-- What is left of a pair after a tick is one, and a pair without active ticks stays so. -/
theorem Player.after_ok {c d : Player} (hc : c.ok) (h : c.after = some d) : d.ok ∧ (c.on = 0#32 → d.on = 0#32) := by
  obtain ⟨hle, hpos⟩ := hc
  unfold Player.after at h
  split at h
  · cases h
  · rename_i hper
    cases h
    refine ⟨⟨?_, ?_⟩, fun hon => ?_⟩
    · show (if 0#32 < c.on then c.on - 1#32 else 0#32) ≤ c.per - 1#32
      split <;> bv_omega
    · show 1#32 ≤ c.per - 1#32
      bv_omega
    · show (if 0#32 < c.on then c.on - 1#32 else 0#32) = 0#32
      rw [if_neg (by rw [hon]; decide)]

/-- The pair for an entry 0 has no active tick. -/
theorem playerOf_zero (r : Word) : (playerOf 0#32 r).on = 0#32 := by simp [playerOf]

/-! ### The queue of a running pulse -/

/-- Playing a pair without active ticks leaves the pulse over (R201). -/
theorem State.played_pulseOver {c : Player} {hold : Option Word} {fifo : List Word} (hc : c.ok) (hon : c.on = 0#32) :
    (s.played c hold fifo).pulseOver := by
  refine ⟨?_, fun d hd => (Player.after_ok hc hd).2 hon⟩
  show decide (0#32 < c.on) = false
  rw [hon]
  decide

/-- The entry before the sentinels' tail: taken from a queue that ends in the sentinels, it leaves them, or is the first of them. -/
theorem sentinels_suffix_cons {e : Word} {q : List Word} (h : [0#32, 0#32] <:+ e :: q) :
    [0#32, 0#32] <:+ q ∨ (e = 0#32 ∧ q = [0#32]) := by
  rcases List.suffix_cons_iff.mp h with heq | hsuffix
  · cases heq
    exact .inr ⟨rfl, rfl⟩
  · exact .inl hsuffix

/-- A tick that takes the holding stage from a queue with the sentinels keeps the shape. -/
theorem State.played_shape_of_sentinels {c : Player} {q : List Word} (h : [0#32, 0#32] <:+ q) :
    (s.played c q.head? q.tail).pulseShape := by
  cases q with
  | nil => simp at h
  | cons e q =>
    refine ⟨fun hno => (nomatch hno), fun d hd => ?_⟩
    cases hd
    exact (sentinels_suffix_cons h).imp_right (And.imp_right .inl)

/-- A tick that plays a pair without active ticks, with an empty FIFO and at most a sentinel held, keeps the shape. -/
theorem State.played_shape_of_over {c : Player} {hold : Option Word} (hc : c.ok) (hon : c.on = 0#32) (hhold : ∀ e ∈ hold, e = 0#32) :
    (s.played c hold []).pulseShape :=
  ⟨fun _ => .inr ⟨rfl, State.played_pulseOver hc hon⟩,
    fun e he => .inr ⟨hhold e he, .inr ⟨rfl, State.played_pulseOver hc hon⟩⟩⟩

/-- A tick keeps the shape of the queue (R201, R202 b). -/
theorem State.tick_pulseShape {t : State} (hen : s.ptEn = true) (hr : s.ptRng ≠ 0#32) (hcur : ∀ c ∈ s.ptCur, c.ok)
    (hshape : s.pulseShape) (h : s.tick = .ok t) : t.pulseShape := by
  obtain ⟨hnone, hsome⟩ := hshape
  have hzero : (playerOf 0#32 s.ptRng).ok := playerOf_ok hr 0#32
  cases hp : s.ptCur with
  | some c =>
    have hc : c.ok := hcur c hp
    cases hh : s.ptHold with
    | none =>
      rcases hnone hh with ⟨hempty, -⟩ | ⟨hfifo, -, hover⟩
      · rw [hp] at hempty; cases hempty
      · rw [State.tick_of_player hen hr hp (.inr hfifo), hh, hfifo] at h
        cases h
        exact State.played_shape_of_over hc (hover c hp) fun _ he => (nomatch he)
    | some e =>
      rw [State.tick_of_player hen hr hp (.inl (by simp [hh])), hh] at h
      cases h
      refine ⟨fun hno => (nomatch hno), fun d hd => ?_⟩
      cases hd
      exact (hsome e hh).imp_right (And.imp_right (Or.imp_right fun ⟨hfifo, _, hover⟩ =>
        ⟨hfifo, State.played_pulseOver hc (hover c hp)⟩))
  | none =>
    cases hh : s.ptHold with
    | none =>
      rcases hnone hh with ⟨-, hsuffix⟩ | ⟨hfifo, hover⟩
      · cases hq : s.ptFifo with
        | nil => simp [hq] at hsuffix
        | cons e q =>
          rw [hq] at hsuffix
          rw [State.tick_of_fifo hen hr hp hh hq] at h
          cases h
          rcases sentinels_suffix_cons hsuffix with hsuffix | ⟨rfl, rfl⟩
          · exact State.played_shape_of_sentinels hsuffix
          · exact State.played_shape_of_over hzero (playerOf_zero _) fun e he => by cases he; rfl
      · rw [State.tick_of_empty hen hr hp hh hfifo] at h
        cases h
        exact ⟨hnone, hsome⟩
    | some e =>
      rw [State.tick_of_hold hen hr hp hh] at h
      cases h
      rcases hsome e hh with hsuffix | ⟨rfl, hfifo | ⟨hfifo, -⟩⟩
      · exact State.played_shape_of_sentinels hsuffix
      · rw [hfifo]
        exact State.played_shape_of_over hzero (playerOf_zero _) fun e he => by cases he; rfl
      · rw [hfifo]
        exact State.played_shape_of_over hzero (playerOf_zero _) fun _ he => (nomatch he)

/-- A queue that has run out is dark (R202 b). -/
theorem State.dark_of_pulseShape (h : s.pulseShape) (hfifo : s.ptFifo = []) : s.oe = false := by
  obtain ⟨hnone, hsome⟩ := h
  cases hh : s.ptHold with
  | none =>
    rcases hnone hh with ⟨-, hsuffix⟩ | ⟨-, hoe, -⟩
    · simp [hfifo] at hsuffix
    · exact hoe
  | some e =>
    rcases hsome e hh with hsuffix | ⟨-, hone | ⟨-, hoe, -⟩⟩
    · simp [hfifo] at hsuffix
    · simp [hfifo] at hone
    · exact hoe

/-- A tick leaves the timer as it is, or plays a tick of a pair that can be played, and the FIFO does not grow (R200). -/
theorem State.tick_eq_or_played {t : State} (hr : s.ptEn = true → s.ptRng ≠ 0#32) (hcur : ∀ c ∈ s.ptCur, c.ok)
    (h : s.tick = .ok t) :
    t = s ∨ ∃ c hold fifo, c.ok ∧ fifo.length ≤ s.ptFifo.length ∧ t = s.played c hold fifo := by
  cases hen : s.ptEn with
  | false =>
    rw [State.tick_disabled hen] at h
    cases h
    exact .inl rfl
  | true =>
    have hr := hr hen
    cases hp : s.ptCur with
    | some c =>
      by_cases hstay : s.ptHold ≠ none ∨ s.ptFifo = []
      · rw [State.tick_of_player hen hr hp hstay] at h
        cases h
        exact .inr ⟨c, _, _, hcur c hp, le_rfl, rfl⟩
      · obtain ⟨hhold, hfifo⟩ := not_or.mp hstay
        obtain ⟨e, q, hq⟩ := List.exists_cons_of_ne_nil hfifo
        rw [State.tick_of_player_refill hen hr hp (not_not.mp hhold) hq] at h
        cases h
        exact .inr ⟨c, _, _, hcur c hp, by simp [hq], rfl⟩
    | none =>
      cases hh : s.ptHold with
      | some e =>
        rw [State.tick_of_hold hen hr hp hh] at h
        cases h
        exact .inr ⟨_, _, _, playerOf_ok hr e, by simp, rfl⟩
      | none =>
        cases hq : s.ptFifo with
        | nil =>
          rw [State.tick_of_empty hen hr hp hh hq] at h
          cases h
          exact .inl rfl
        | cons e q =>
          rw [State.tick_of_fifo hen hr hp hh hq] at h
          cases h
          exact .inr ⟨_, _, _, playerOf_ok hr e, by simp; omega, rfl⟩

/-- A tick keeps a good timer good (R200, R202): an enabled one is in no dark phase, and a disabled one ticks to itself. -/
theorem State.tick_timerOk {t : State} (ht : s.timerOk) (h : s.tick = .ok t) : t.timerOk := by
  obtain ⟨hlen, hcur, hdark, hoff, hon⟩ := ht
  cases hen : s.ptEn with
  | false =>
    rw [State.tick_disabled hen] at h
    cases h
    exact ⟨hlen, hcur, hdark, hoff, hon⟩
  | true =>
    obtain ⟨hr, hshape⟩ := hon hen
    have hlit : darkPhase s.seqPc ≠ true := fun hd => by simp [(hdark hd).1] at hen
    have hshape' := State.tick_pulseShape hen hr hcur hshape h
    rcases State.tick_eq_or_played (fun _ => hr) hcur h with rfl | ⟨c, hold, fifo, hc, hfifo, rfl⟩
    · exact ⟨hlen, hcur, hdark, hoff, hon⟩
    · exact ⟨hfifo.trans hlen, fun d hd => (Player.after_ok hc hd).1, fun hd => absurd hd hlit,
        fun hno => absurd (hen.symm.trans hno) (by decide), fun _ => ⟨hr, hshape'⟩⟩

/-- From a good timer a tick does not fault: an enabled one has a range (R200). -/
theorem State.exists_tick (ht : s.timerOk) : ∃ t, s.tick = .ok t := by
  obtain ⟨-, -, -, -, hon⟩ := ht
  cases hen : s.ptEn with
  | false => exact ⟨s, State.tick_disabled hen⟩
  | true => exact ⟨_, State.tick_enabled hen (hon hen).1⟩

end Sys2Proof.Machine

/-! ## Every step keeps the invariant

The invariant reads no register of the port but `host`, so a turn that writes others keeps it. A command keeps it by its effect; a phase
of the scan keeps it if it leaves the counters and the timer good; a tick keeps the timer good. -/

namespace Sys2Proof.Machine

variable {s t : State}

/-- The invariant does not read the words presented, the response, the turn list, the free counters or the stamps. -/
theorem Inv.unobserved (hI : Inv s) (cmd : Option CmdWord) (rsp : Word) (ws : List CmdWord) (ag : List Agent) (n : Nat)
    (t1m : Word) :
    Inv { s with cmd := cmd, rsp := rsp, hostWords := ws, agenda := ag, freeCount := n, t1mhz := t1m } :=
  ⟨hI.legal, hI.memOk, hI.settingsOk, hI.handoffOk, hI.runOk, hI.countersOk, hI.timerOk, hI.masksOk⟩

/-! ### Commands -/

theorem State.settings_configured (f g : FrameId) (st : FrameSettings) :
    (s.configured f st).settings g = if g = f then st else s.settings g :=
  State.settings_setSettings

theorem State.settings_frameCreated (g : FrameId) :
    s.frameCreated.settings g = if g = s.numCreated then FrameSettings.created s.cfg else s.settings g :=
  State.settings_setSettings (s := s)

/-- The counters' bounds read the settings of the active frame only. -/
theorem State.countersOk_congr (h : s.countersOk) (hcfg : t.cfg = s.cfg) (hpc : t.seqPc = s.seqPc) (hd : t.seqD = s.seqD)
    (hp : t.seqP = s.seqP) (hx : t.seqX = s.seqX) (hst : t.settings t.active = s.settings s.active) : t.countersOk := by
  unfold State.countersOk
  rwa [hcfg, hpc, hd, hp, hx, hst]

/-- A legal setting of a frame that is not active keeps the invariant. -/
theorem Inv.configured (hI : Inv s) {f : FrameId} {st : FrameSettings} (hw : s.writable f) (hst : st.ok s.cfg) :
    Inv (s.configured f st) where
  legal := hI.legal
  memOk := hI.memOk
  settingsOk g hg := by
    rw [State.settings_configured]
    split
    · exact hst
    · exact hI.settingsOk g hg
  handoffOk := hI.handoffOk
  runOk := hI.runOk
  countersOk := State.countersOk_congr hI.countersOk rfl rfl rfl rfl rfl
    ((State.settings_configured ..).trans (if_neg hw.2.symm))
  timerOk := hI.timerOk
  masksOk := hI.masksOk

/-- Creating a frame that is left counts it without overflow (R6, R25). -/
theorem Inv.numCreated_succ (hI : Inv s) (hleft : s.numCreated.toNat < s.cfg.numFrames) :
    (s.numCreated + 1#4).toNat = s.numCreated.toNat + 1 := by
  obtain ⟨-, -, -, -, ⟨-, hframes⟩, -⟩ := (legal_iff _).mp hI.legal
  exact BitVec.toNat_add_of_lt (by simp; omega)

/-- The frames after a creation: the new one and those before. -/
theorem Inv.created_frameCreated (hI : Inv s) (hleft : s.numCreated.toNat < s.cfg.numFrames) {f : FrameId} :
    s.frameCreated.created f ↔ f = s.numCreated ∨ s.created f := by
  show f < s.numCreated + 1#4 ↔ f = s.numCreated ∨ f < s.numCreated
  simp only [BitVec.lt_def, ← BitVec.toNat_inj, hI.numCreated_succ hleft]
  omega

/-- The words of the frame just created read zero, so none is listed; those of the others are as before (R216). -/
theorem Inv.memOk_frameCreated (hI : Inv s) (hleft : s.numCreated.toNat < s.cfg.numFrames) : s.frameCreated.memOk := by
  have hpatched : State.memOk { s with mem := s.mem.patchAll (zeroPatches s.cfg s.numCreated) } :=
    State.memOk_patchAll hI.memOk _ _ hleft zeroPatches_ok
  obtain ⟨hwf, hexist, hcolor⟩ := hpatched
  refine ⟨hwf, hexist, fun c hc hlow => ?_⟩
  replace hlow : c.1 < (s.numCreated + 1#4).toNat * s.cfg.frameWords := hlow
  rw [hI.numCreated_succ hleft, Nat.add_mul, Nat.one_mul] at hlow
  rcases Nat.lt_or_ge c.1 (s.numCreated.toNat * s.cfg.frameWords) with hold | hnew
  · exact hcolor c hc hold
  · have hread := Memory.read_zeroPatches (c := s.cfg) (f := s.numCreated) hI.memOk.1 c.1
    rw [if_pos ⟨hnew, hlow⟩, Memory.read_of_mem hwf hc] at hread
    exact absurd hread (hwf.2 c hc)

/-- Creating a frame keeps the invariant (R216). -/
theorem Inv.frameCreated (hI : Inv s) (hleft : s.numCreated.toNat < s.cfg.numFrames) : Inv s.frameCreated := by
  obtain ⟨hpos, -, hactive, hpending, hret, hone, hwait⟩ := hI.handoffOk
  have hgrow {f : FrameId} (hf : s.created f) : s.frameCreated.created f := (hI.created_frameCreated hleft).mpr (.inr hf)
  have hcount : s.frameCreated.numCreated.toNat = s.numCreated.toNat + 1 := hI.numCreated_succ hleft
  have hne : s.active ≠ s.numCreated := fun h => absurd hactive (by rw [State.created, h]; exact BitVec.lt_irrefl _)
  refine ⟨hI.legal, hI.memOk_frameCreated hleft, fun f hf => ?_, ⟨?_, ?_, hgrow hactive, fun g hg => ?_, fun g hg => ?_, hone, hwait⟩,
    hI.runOk, ?_, hI.timerOk, hI.masksOk⟩
  · rw [State.settings_frameCreated]
    split
    · exact FrameSettings.created_ok hI.legal
    · rename_i hold
      exact hI.settingsOk f (((hI.created_frameCreated hleft).mp hf).resolve_left hold)
  · omega
  · rw [hcount]
    exact hleft
  · exact ⟨hgrow (hpending g hg).1, (hpending g hg).2⟩
  · exact ⟨hgrow (hret g hg).1, (hret g hg).2⟩
  · exact State.countersOk_congr hI.countersOk rfl rfl rfl rfl rfl ((State.settings_frameCreated _).trans (if_neg hne))

/-- At an idle port nothing is in flight (R50 d). -/
theorem Inv.not_in_flight (hI : Inv s) (hhost : s.host ≠ .waitSwap) : s.pending = none ∧ s.swapRet = none := by
  obtain ⟨-, -, -, -, -, -, hwait⟩ := hI.handoffOk
  have hnone := mt hwait.mpr hhost
  simpa using hnone

/-- A running block at an idle port was not asked to stop (R29). -/
theorem Inv.not_stopping (hI : Inv s) (ha : s.accepting) : s.stopFlag = false := by
  obtain ⟨hidle, hrun⟩ := ha
  obtain ⟨-, -, hblocked, -⟩ := hI.runOk
  by_contra hstop
  rcases hblocked (Bool.eq_true_of_not_eq_false hstop) with h | h
  · simp [hrun] at h
  · simp [hidle] at h

/-- Publishing a frame keeps the invariant (R219). -/
theorem Inv.published (hI : Inv s) {f : FrameId} (ha : s.accepting) (hw : s.writable f) :
    Inv { s with pending := some f, host := .waitSwap } := by
  obtain ⟨hpos, hcount, hactive, -⟩ := hI.handoffOk
  obtain ⟨-, hret⟩ := hI.not_in_flight (by simp [ha.1])
  have hstop := hI.not_stopping ha
  obtain ⟨hscan, hteardown, -⟩ := hI.runOk
  refine ⟨hI.legal, hI.memOk, hI.settingsOk, ⟨hpos, hcount, hactive, fun g hg => ?_, fun g hg => ?_, .inr hret, by simp⟩,
    ⟨hscan, hteardown, by simp [hstop], by simp, by simp [ha.2], by simp [ha.2]⟩, hI.countersOk, hI.timerOk, hI.masksOk⟩
  · cases hg
    exact hw
  · rw [show State.swapRet _ = none from hret] at hg
    cases hg

/-- Asking for shutdown keeps the invariant (R224). -/
theorem Inv.stopped (hI : Inv s) (ha : s.accepting) : Inv { s with stopFlag := true, host := .waitStop } := by
  obtain ⟨hpos, hcount, hactive, hpending, hret, hone, -⟩ := hI.handoffOk
  obtain ⟨hpending', hret'⟩ := hI.not_in_flight (by simp [ha.1])
  obtain ⟨hscan, -⟩ := hI.runOk
  exact ⟨hI.legal, hI.memOk, hI.settingsOk, ⟨hpos, hcount, hactive, hpending, hret, hone, by simp [hpending', hret']⟩,
    ⟨hscan, fun _ => rfl, by simp, by simp, by simp [ha.2], by simp [ha.2]⟩, hI.countersOk, hI.timerOk, hI.masksOk⟩

/-- Every effect of a command keeps the invariant. -/
theorem CmdEffect.inv (h : CmdEffect s t) (hI : Inv s) : Inv t := by
  cases h with
  | same => exact hI
  | answer st v => exact hI.unobserved _ _ _ _ _ _
  | draw f cs _ hw hcs => exact hI.drawn hw.1 (hcs hI.legal)
  | configure f st _ hw hst => exact hI.configured hw (hst hI.legal (hI.settingsOk f hw.1))
  | create ha hleft => exact hI.frameCreated hleft
  | publish f ha hw => exact hI.published ha hw
  | stop ha => exact hI.stopped ha

/-- Completing a swap keeps the invariant (R220). -/
theorem Inv.completeSwap (hI : Inv s) {g : FrameId} (hhost : s.host = .waitSwap) (hret : s.swapRet = some g) :
    Inv (s.completeSwap g) := by
  obtain ⟨hpos, hcount, hactive, hpending, -, hone, -⟩ := hI.handoffOk
  obtain ⟨hscan, hteardown, hblocked, -, hstopped, hfailed⟩ := hI.runOk
  have hnone : s.pending = none := hone.resolve_right (by simp [hret])
  have hrun : s.run ≠ .stopped := fun h => (hstopped h).2.1 hhost
  have hstop : s.stopFlag = false := by
    by_contra h
    rcases hblocked (Bool.eq_true_of_not_eq_false h) with h | h
    · exact hrun h
    · simp [hhost] at h
  exact ⟨hI.legal, hI.memOk, hI.settingsOk, ⟨hpos, hcount, hactive, hpending, fun _ hg => (nomatch hg), .inl hnone, by simp [hnone]⟩,
    ⟨hscan, hteardown, by simp [hstop], fun h => (nomatch h), fun h => absurd h hrun, fun h => ⟨rfl, (hfailed h).2⟩⟩,
    hI.countersOk, hI.timerOk, hI.masksOk⟩

/-- Completing a shutdown keeps the invariant (R225). -/
theorem Inv.completeStop (hI : Inv s) (hhost : s.host = .waitStop) (hrun : s.run = .stopped) : Inv s.completeStop := by
  obtain ⟨hpos, hcount, hactive, hpending, hret, hone, -⟩ := hI.handoffOk
  obtain ⟨hscan, hteardown, -, -, hstopped, -⟩ := hI.runOk
  obtain ⟨hnone, hnone'⟩ := hI.not_in_flight (by simp [hhost])
  exact ⟨hI.legal, hI.memOk, hI.settingsOk, ⟨hpos, hcount, hactive, hpending, hret, hone, by simp [hnone, hnone']⟩,
    ⟨hscan, hteardown, fun _ => .inl hrun, fun h => (nomatch h),
      fun h => ⟨(hstopped h).1, fun h => (nomatch h), (hstopped h).2.2⟩, by simp [hrun]⟩,
    hI.countersOk, hI.timerOk, hI.masksOk⟩

/-! ### Phases -/

/-- What a phase leaves as it is, field by field (R68). -/
theorem exec_phase_keeps {p : Phase} (h : exec p.instr s = .next t) :
    t.cfg = s.cfg ∧ t.mem = s.mem ∧ t.frames = s.frames ∧ t.numCreated = s.numCreated ∧ t.stopFlag = s.stopFlag ∧
      t.host = s.host := by
  have hp : p.instr.format = .seqPhase := by cases p <;> rfl
  rw [phasesNeverTouchTheFrames _ s t hp h]
  exact ⟨rfl, rfl, rfl, rfl, rfl, rfl⟩

/-- A phase writes masks of owned pins only, so the trace keeps them (R178). -/
theorem Inv.masksOk_phase (hI : Inv s) {p : Phase} (h : exec p.instr s = .next t) : ∀ e ∈ t.trace, e.maskOk := by
  obtain ⟨es, htrace, -, hmask⟩ := (exec_phase_drives h).mono (phasePins_owned p)
  rw [htrace]
  intro e he
  rcases List.mem_append.mp he with he | he
  · exact hI.masksOk e he
  · exact hmask e he

/-- A running sequencer is not halted, and the block scans (R30). -/
theorem Inv.scanning (hI : Inv s) (hpc : s.seqPc ≠ .halt) : s.run = .scanning := hI.runOk.1.mpr hpc

/-- In a scanning block the registers of R29 to R31 are good when the stop flag and the blocked shutdown go together. -/
theorem State.runOk_of_scanning (hrun : s.run = .scanning) (hpc : s.seqPc ≠ .halt) (hteardown : s.seqPc = .teardown → s.stopFlag = true)
    (hstop : s.stopFlag = true ↔ s.host = .waitStop) : s.runOk := by
  refine ⟨by simp [hrun, hpc], hteardown, fun h => .inr (hstop.mp h), hstop.mpr, ?_, ?_⟩ <;> simp [hrun]

theorem Inv.stop_iff (hI : Inv s) (hrun : s.run = .scanning) : s.stopFlag = true ↔ s.host = .waitStop := by
  obtain ⟨-, -, hblocked, hblocked', -⟩ := hI.runOk
  exact ⟨fun h => (hblocked h).resolve_left (by simp [hrun]), hblocked'⟩

/-- A phase that goes on scanning keeps the invariant if it leaves the handoff, the counters and the timer good. -/
theorem Inv.of_phase (hI : Inv s) {p : Phase} (h : exec p.instr s = .next t) (hscan : s.run = .scanning) (hrun : t.run = s.run)
    (hpc : t.seqPc ≠ .halt) (hteardown : t.seqPc = .teardown → s.stopFlag = true) (hhandoff : t.handoffOk) (hcounters : t.countersOk)
    (htimer : t.timerOk) : Inv t := by
  obtain ⟨hcfg, hmem, hframes, hnum, hstop, hhost⟩ := exec_phase_keeps h
  refine ⟨?_, ?_, fun f hf => ?_, hhandoff, ?_, hcounters, htimer, hI.masksOk_phase h⟩
  · rw [hcfg]
    exact hI.legal
  · unfold State.memOk
    rw [hcfg, hmem, hnum]
    exact hI.memOk
  · rw [hcfg, State.settings_congr s t hframes]
    exact hI.settingsOk f (by rwa [State.created, ← hnum])
  · exact State.runOk_of_scanning (hrun.trans hscan) hpc (by rwa [hstop]) (by rw [hstop, hhost]; exact hI.stop_iff hscan)

/-- A quiescent timer is good. -/
theorem State.timerOk_of_quiescent (h : s.quiescent) : s.timerOk := by
  obtain ⟨hen, hfifo, hhold, hcur, hoe⟩ := id h
  exact ⟨by simp [hfifo], by simp [hcur], fun _ => h, fun _ => h, by simp [hen]⟩

/-- A phase that writes the pins, the plane and the column only, and goes on scanning, keeps the invariant if the counters stay good and
it leads into a dark phase from a dark phase only. -/
theorem Inv.of_write (hI : Inv s) {p : Phase} (h : exec p.instr s = .next t) (hscan : s.run = .scanning)
    (hframe : t = { s with gpio := t.gpio, trace := t.trace, seqPc := t.seqPc, seqP := t.seqP, seqX := t.seqX })
    (hpc : t.seqPc ≠ .halt ∧ t.seqPc ≠ .teardown) (hdark : darkPhase t.seqPc = true → darkPhase s.seqPc = true)
    (hcounters : t.countersOk) : Inv t := by
  have htimer : t.timerOk := by
    obtain ⟨hlen, hplayer, hquiet, hoff, hon⟩ := hI.timerOk
    rw [hframe]
    exact ⟨hlen, hplayer, fun hd => hquiet (hdark hd), hoff, hon⟩
  have hhandoff : t.handoffOk := by
    rw [hframe]
    exact hI.handoffOk
  exact hI.of_phase h hscan (by rw [hframe]) hpc.1 (fun h => absurd h hpc.2) hhandoff hcounters htimer

/-- The pickup keeps the double-buffer registers good: the two frames change places (R222). -/
theorem Inv.handoffOk_pickup (hI : Inv s) : s.pickup.handoffOk := by
  cases hp : s.pending with
  | none =>
    rw [State.pickup_of_none hp]
    exact hI.handoffOk
  | some g =>
    obtain ⟨hpos, hcount, hactive, hpending, -, hone, hwait⟩ := hI.handoffOk
    obtain ⟨hcreated, hne⟩ := hpending g hp
    rw [State.pickup_of_some hp]
    refine ⟨hpos, hcount, hcreated, fun _ h => (nomatch h), fun f hf => ?_, .inl rfl, by simp [hwait, hp]⟩
    cases hf
    exact ⟨hactive, hne.symm⟩

/-- The number of active planes of the frame shown is between 1 and the depth (R23). -/
theorem Inv.pwmBits_bounds (hI : Inv s) :
    1 ≤ (s.settings s.active).pwmBits.toNat ∧ (s.settings s.active).pwmBits.toNat ≤ s.cfg.n := by
  obtain ⟨-, -, hactive, -⟩ := hI.handoffOk
  obtain ⟨-, -, hlow, hhigh⟩ := hI.settingsOk _ hactive
  exact ⟨hlow, hhigh⟩

/-- The queue that `SendPulse` leaves in an idle timer has the shape of a running pulse (R193, R202). -/
theorem State.timerOk_pulseSent (hl : s.cfg.legal = true) (hp : s.seqP.toNat < s.cfg.n) (hq : s.quiescent)
    (hpc : darkPhase t.seqPc = false) (hcfg : t.cfg = s.cfg) (hrng : t.ptRng = s.pulseSent.ptRng)
    (hfifo : t.ptFifo = s.pulseSent.ptFifo) (hhold : t.ptHold = s.ptHold) (hcur : t.ptCur = s.ptCur) (hen : t.ptEn = true) :
    t.timerOk := by
  obtain ⟨-, -, hhold', hcur', -⟩ := hq
  have hroom := legal_fifo_room hl s.seqP.toNat
  refine ⟨?_, by simp [hcur, hcur'], by simp [hpc], by simp [hen], fun _ => ⟨?_, fun _ => .inl ⟨hcur.trans hcur', ?_⟩, ?_⟩⟩
  · rw [hfifo, hcfg]
    simpa [State.pulseSent, pulseEntries] using hroom
  · rw [hrng]
    exact legal_range_ne_zero hl hp
  · rw [hfifo]
    exact List.suffix_append ..
  · simp [hhold, hhold']

/-- The plane and the column after a pulse are in range (R175, R177). -/
theorem State.countersOk_afterPulse (hl : s.cfg.legal = true) (h : s.countersOk) (hpc : selectsPlane s.seqPc = true) :
    s.afterPulse.countersOk := by
  obtain ⟨hd, hp, hx, hsel⟩ := h
  obtain ⟨-, ⟨hcolumns, -⟩, -⟩ := (legal_iff _).mp hl
  by_cases hlast : s.seqP.toNat = s.cfg.n - 1
  · rw [State.afterPulse_last hlast]
    exact ⟨hd, hp, hx, fun _ => hsel hpc⟩
  · have hsucc := seqP_succ_toNat hl hp
    have hle := hsel hpc
    rw [State.afterPulse_step hlast]
    refine ⟨hd, ?_, hcolumns, fun _ => ?_⟩
    · show (s.seqP + 1#4).toNat < s.cfg.n
      omega
    · show s.cfg.n - (s.settings s.active).pwmBits.toNat ≤ (s.seqP + 1#4).toNat
      omega

theorem State.afterPulse_seqPc (s : State) : s.afterPulse.seqPc = .rowWait ∨ s.afterPulse.seqPc = .colClr := by
  unfold State.afterPulse
  split
  · exact .inl rfl
  · exact .inr rfl

/-- The half-row after the last pulse is in range (R176, R177). -/
theorem State.countersOk_afterRow (hl : s.cfg.legal = true) (h : s.countersOk) : s.afterRow.countersOk := by
  obtain ⟨hd, hp, hx, -⟩ := h
  by_cases hlast : s.seqD.toNat = s.cfg.half - 1
  · rw [State.afterRow_last hlast]
    exact ⟨hd, hp, hx, fun h => (nomatch h)⟩
  · have hsucc := seqD_succ_toNat hl hd hlast
    rw [State.afterRow_step hlast]
    refine ⟨?_, hp, hx, fun h => (nomatch h)⟩
    show (s.seqD + 1#3).toNat < s.cfg.half
    omega

theorem State.afterRow_seqPc (s : State) : s.afterRow.seqPc = .top ∨ s.afterRow.seqPc = .rowClr := by
  unfold State.afterRow
  split
  · exact .inl rfl
  · exact .inr rfl

/-- The first active plane is in range (R166, R177). -/
theorem Inv.firstPlane_toNat (hI : Inv s) :
    (BitVec.ofNat 4 (s.cfg.n - (s.settings s.active).pwmBits.toNat)).toNat = s.cfg.n - (s.settings s.active).pwmBits.toNat := by
  obtain ⟨-, -, -, ⟨-, hn⟩, -⟩ := (legal_iff _).mp hI.legal
  exact Nat.mod_eq_of_lt (by omega)

/-- What the teardown leaves low (R226). -/
theorem cleared_and_mask (g m : Word) : (g &&& ~~~m) &&& m = 0#32 := by
  rw [BitVec.and_assoc, BitVec.and_comm (~~~m), BitVec.and_not_self]
  exact BitVec.and_zero

/-- The phases before and after the columns of a plane that make one write and keep the counters. -/
theorem Inv.after_write (hI : Inv s) {p q : Phase} {g : Word} {tr : List Event} (hpc : s.seqPc = p) (hscan : p ≠ .halt)
    (hq : q ≠ .halt ∧ q ≠ .teardown) (hdark : darkPhase q = true → darkPhase p = true)
    (hsel : selectsPlane q = true → selectsPlane p = true)
    (h : exec p.instr s = .next { s with gpio := g, trace := tr, seqPc := q }) :
    Inv { s with gpio := g, trace := tr, seqPc := q } := by
  obtain ⟨hd, hp, hx, hplane⟩ := hI.countersOk
  exact hI.of_write h (hI.scanning (hpc ▸ hscan)) rfl hq (hpc ▸ hdark) ⟨hd, hp, hx, fun hs => hplane (hpc ▸ hsel hs)⟩

theorem Inv.after_rowSet (hI : Inv s) (hpc : s.seqPc = .rowSet) (h : exec .rowSet s = .next t) : Inv t := by
  obtain ⟨hd, -, -, -⟩ := hI.countersOk
  obtain ⟨-, ⟨hcolumns, -⟩, -⟩ := (legal_iff _).mp hI.legal
  have hfirst := hI.firstPlane_toNat
  have hbits := hI.pwmBits_bounds
  have hplane : s.cfg.n - (s.settings s.active).pwmBits.toNat < s.cfg.n := by omega
  have hexec := h
  cases h
  exact hI.of_write (p := .rowSet) hexec (hI.scanning (by simp [hpc])) rfl (by simp) (fun h => (nomatch h))
    ⟨hd, hfirst.trans_lt hplane, hcolumns, fun _ => hfirst.ge⟩

theorem Inv.after_colClk (hI : Inv s) (hpc : s.seqPc = .colClk) (h : exec .colClk s = .next t) : Inv t := by
  obtain ⟨hd, hp, hx, hsel⟩ := hI.countersOk
  have hplane := hsel (by rw [hpc]; rfl)
  have hscan := hI.scanning (by simp [hpc])
  obtain ⟨u, hu, hframe, hlast, hstep⟩ := colClkStepsTheColumn s hI.legal hx
  obtain rfl : u = t := by simpa using hu.symm.trans h
  have hcol : (u.seqX.toNat < s.cfg.columns) ∧ (u.seqPc = .planeClr ∨ u.seqPc = .colClr) := by
    by_cases hc : s.seqX.toNat = s.cfg.columns - 1
    · exact ⟨(hlast hc).1 ▸ hx, .inl (hlast hc).2⟩
    · exact ⟨by have := (hstep hc).1; omega, .inr (hstep hc).2⟩
  obtain ⟨hx', hpc'⟩ := hcol
  refine hI.of_write (p := .colClk) h hscan (by rw [hframe]) ?_ ?_ ?_
  · rcases hpc' with h | h <;> simp [h]
  · rcases hpc' with h | h <;> simp [h, darkPhase]
  · rw [hframe]
    exact ⟨hd, hp, hx', fun _ => hplane⟩

theorem Inv.after_teardown (hI : Inv s) (hpc : s.seqPc = .teardown) (h : exec .teardown s = .next t) : Inv t := by
  obtain ⟨hd, hp, hx, -⟩ := hI.countersOk
  have hquiet := hI.quiescent_of_dark (by rw [hpc]; rfl)
  have hstop : s.stopFlag = true := hI.runOk.2.1 hpc
  have hhost : s.host = .waitStop := (hI.stop_iff (hI.scanning (by simp [hpc]))).mp hstop
  have hmasks := hI.masksOk_phase (p := .teardown) h
  cases h
  exact ⟨hI.legal, hI.memOk, hI.settingsOk, hI.handoffOk,
    ⟨by simp, fun _ => hstop, fun _ => .inl rfl, fun _ => hstop, fun _ => ⟨hstop, by simp [hhost], cleared_and_mask _ _⟩,
      fun h => (nomatch h)⟩,
    ⟨hd, hp, hx, fun h => (nomatch h)⟩, State.timerOk_of_quiescent hquiet, hmasks⟩

theorem Inv.after_top (hI : Inv s) (hpc : s.seqPc = .top) (h : exec .top s = .next t) : Inv t := by
  obtain ⟨-, hp, hx, -⟩ := hI.countersOk
  have hscan := hI.scanning (by simp [hpc])
  have hquiet := hI.quiescent_of_dark (by rw [hpc]; rfl)
  have hhalf := (legal_half hI.legal).1
  rcases exec_top_next h with ⟨hstop, rfl⟩ | ⟨-, rfl⟩
  · exact hI.of_phase (p := .top) h hscan rfl (by simp) (fun _ => hstop) hI.handoffOk ⟨hI.countersOk.1, hp, hx, fun h => (nomatch h)⟩
      (State.timerOk_of_quiescent hquiet)
  · have hhandoff := hI.handoffOk_pickup
    have hframe := s.pickup_frame
    refine hI.of_phase (p := .top) h hscan (congrArg State.run hframe :) (by simp) (fun h => (nomatch h)) hhandoff ?_ ?_
    · rw [hframe]
      exact ⟨hhalf, hp, hx, fun h => (nomatch h)⟩
    · rw [hframe]
      exact State.timerOk_of_quiescent hquiet

theorem Inv.after_planeWait (hI : Inv s) (hpc : s.seqPc = .planeWait) (h : exec .planeWait s = .next t) : Inv t := by
  obtain ⟨hd, hp, hx, hsel⟩ := hI.countersOk
  rcases exec_planeWait_next h with ⟨-, rfl⟩ | ⟨-, rfl⟩
  · exact hI
  · exact hI.of_phase (p := .planeWait) h (hI.scanning (by simp [hpc])) rfl (by simp) (fun h => (nomatch h)) hI.handoffOk
      ⟨hd, hp, hx, fun _ => hsel (by rw [hpc]; rfl)⟩ (State.timerOk_of_quiescent ⟨rfl, rfl, rfl, rfl, rfl⟩)

theorem Inv.after_rowWait (hI : Inv s) (hpc : s.seqPc = .rowWait) (h : exec .rowWait s = .next t) : Inv t := by
  rcases exec_rowWait_next h with ⟨-, rfl⟩ | ⟨-, rfl⟩
  · exact hI
  · have hcounters := State.countersOk_afterRow (s := s.ptControl .ctlQuiet) hI.legal hI.countersOk
    have hnext := (s.ptControl .ctlQuiet).afterRow_seqPc
    have hframe := (s.ptControl .ctlQuiet).afterRow_frame
    refine hI.of_phase (p := .rowWait) h (hI.scanning (by simp [hpc])) (congrArg State.run hframe :) ?_ ?_ ?_ hcounters ?_
    · rcases hnext with h | h <;> simp [h]
    · rcases hnext with h | h <;> simp [h]
    · rw [hframe]
      exact hI.handoffOk
    · rw [hframe]
      exact State.timerOk_of_quiescent ⟨rfl, rfl, rfl, rfl, rfl⟩

theorem Inv.after_pulse (hI : Inv s) (hpc : s.seqPc = .pulse) (h : exec .pulse s = .next t) : Inv t := by
  obtain ⟨-, hp, -, -⟩ := hI.countersOk
  have hquiet := hI.quiescent_of_dark (by rw [hpc]; rfl)
  have hselects : selectsPlane s.pulseSent.seqPc = true := by
    show selectsPlane s.seqPc = true
    rw [hpc]
    rfl
  have hcounters := State.countersOk_afterPulse (s := s.pulseSent) hI.legal hI.countersOk hselects
  cases (exec_pulse hI.legal hquiet.2.1).symm.trans h
  have hnext := s.pulseSent.afterPulse_seqPc
  have hframe := s.pulseSent.afterPulse_frame
  refine hI.of_phase (p := .pulse) h (hI.scanning (by simp [hpc])) (congrArg State.run hframe :) ?_ ?_ ?_ hcounters
    (State.timerOk_pulseSent hI.legal hp hquiet ?_ (congrArg State.cfg hframe :) (congrArg State.ptRng hframe :)
      (congrArg State.ptFifo hframe :) (congrArg State.ptHold hframe :) (congrArg State.ptCur hframe :) (congrArg State.ptEn hframe :))
  · rcases hnext with h | h <;> simp [h]
  · rcases hnext with h | h <;> simp [h]
  · rw [hframe]
    exact hI.handoffOk
  · rcases hnext with h | h <;> rw [h] <;> rfl

/-- Every phase keeps the invariant. -/
theorem Inv.phase (hI : Inv s) (h : exec s.seqPc.instr s = .next t) : Inv t := by
  have hexec {p : Phase} (hp : s.seqPc = p) : exec p.instr s = .next t := hp ▸ h
  cases hpc : s.seqPc with
  | top => exact hI.after_top hpc (hexec hpc)
  | rowSet => exact hI.after_rowSet hpc (hexec hpc)
  | colClk => exact hI.after_colClk hpc (hexec hpc)
  | planeWait => exact hI.after_planeWait hpc (hexec hpc)
  | rowWait => exact hI.after_rowWait hpc (hexec hpc)
  | pulse => exact hI.after_pulse hpc (hexec hpc)
  | teardown => exact hI.after_teardown hpc (hexec hpc)
  | halt =>
    rw [hpc] at h
    cases h
    exact hI
  | colData =>
    rw [hpc] at h
    obtain ⟨w, -, rfl⟩ := exec_colData_next h
    exact hI.after_write hpc (by simp) (by simp) (by simp [darkPhase]) (by simp [selectsPlane]) h
  | rowClr | colClr | planeClr | strobeSet | strobeClr =>
    rw [hpc] at h
    have hexec := h
    cases h
    exact hI.after_write hpc (by simp) (by simp) (by simp [darkPhase]) (by simp [selectsPlane]) hexec

/-- A tick keeps the invariant. -/
theorem Inv.tick (hI : Inv s) (h : s.tick = .ok t) : Inv t := by
  have htimer := State.tick_timerOk hI.timerOk h
  rw [State.tick_frame h] at htimer ⊢
  exact ⟨hI.legal, hI.memOk, hI.settingsOk, hI.handoffOk, hI.runOk, hI.countersOk, htimer, hI.masksOk⟩

/-- Every turn keeps the invariant. -/
theorem TurnEffect.inv (h : TurnEffect s t) (hI : Inv s) : Inv t := by
  cases h with
  | same => exact hI
  | present w ws n => exact hI.unobserved _ _ _ _ _ _
  | count => exact hI.unobserved _ _ _ _ _ _
  | tick t h => exact hI.tick h
  | phase t h => exact hI.phase h
  | command t _ h => exact h.inv (hI.unobserved _ _ _ _ _ _)
  | completeSwap g hhost hret => exact hI.completeSwap hhost hret
  | completeStop hhost hrun => exact hI.completeStop hhost hrun

/-- Settles O52: by the turn that the step takes. -/
theorem everyStepKeepsTheInvariant : Obligations.EveryStepKeepsTheInvariant := by
  intro s t hI h
  obtain ⟨_, _, heffect⟩ := step_effect h
  exact heffect.inv (hI.unobserved _ _ _ _ _ _)

end Sys2Proof.Machine

/-! ## What the invariant gives every step

From a state of the invariant no turn stops; the active frame is safe from the producer; and a block that does not scan stays as it
is. -/

namespace Sys2Proof.Machine

variable {s t : State}

/-- Settles O50: a disabled timer is quiescent; in an enabled one an empty FIFO is the end of the queue's shape. -/
theorem emptyFifoMeansDark : Obligations.EmptyFifoMeansDark := by
  intro s hI hempty
  have hfifo : s.ptFifo = [] := List.isEmpty_iff.mp hempty
  obtain ⟨-, -, -, hoff, hon⟩ := hI.timerOk
  cases hen : s.ptEn with
  | false => exact (hoff hen).2.2.2.2
  | true => exact State.dark_of_pulseShape (hon hen).2 hfifo

/-! ### No step stops -/

/-- A command whose effect succeeds wherever its checks pass answers a next state. -/
theorem State.exists_onPort {check : Option Status} {effect : Except Fault State}
    (h : check = none → ∃ u, effect = .ok u) : ∃ t, s.onPort check effect = .next t := by
  by_cases hidle : s.host = .idle
  · cases hcheck : check with
    | some st => exact ⟨_, State.onPort_reject hidle rfl⟩
    | none =>
      obtain ⟨u, hu⟩ := h hcheck
      exact ⟨u, by rw [State.onPort_accept hidle rfl, hu]; rfl⟩
  · exact ⟨s, State.onPort_blocked hidle⟩

/-- Patching a frame that exists succeeds (R60). -/
theorem State.exists_patchFrame {f : FrameId} (hf : f.toNat < s.cfg.numFrames) (cs : List CellPatch) (g : State → State) :
    ∃ u, (s.patchFrame f cs).map g = .ok u := by
  rw [State.patchFrame_eq_ok.mpr ⟨hf, rfl⟩]
  exact ⟨_, rfl⟩

/-- No command stops: the frame it patches is created, or the next one left (R63). -/
theorem Inv.exists_exec_cmd (hI : Inv s) {i : Instr} (hi : i.format = .cmd) : ∃ t, exec i s = .next t := by
  have hframe {f : FrameId} (h : s.writeCheck f = none) : f.toNat < s.cfg.numFrames :=
    hI.frame_lt (State.writeCheck_eq_none.mp h).2.1
  cases i with
  | setpixel f x y r g b =>
    refine State.exists_onPort fun hcheck => ?_
    split
    · exact ⟨_, rfl⟩
    · exact State.exists_patchFrame (hframe hcheck) _ _
  | fill f r g b => exact State.exists_onPort fun hcheck => State.exists_patchFrame (hframe hcheck) _ _
  | clear f => exact State.exists_onPort fun hcheck => State.exists_patchFrame (hframe hcheck) _ _
  | createframe =>
    refine State.exists_onPort fun hcheck => State.exists_patchFrame ?_ _ _
    have hleft : s.numCreated.toNat ≠ s.cfg.numFrames := by simpa using (Option.or_eq_none_iff.mp hcheck).2
    exact Nat.lt_of_le_of_ne hI.handoffOk.2.1 hleft
  | setpwmbits | setbrightness | setlumcorrect | width | height | shutdown => exact State.exists_onPort fun _ => ⟨_, rfl⟩
  | swaponvsync f =>
    by_cases hf : f = 0xF#4
    · subst hf
      rw [exec_peek]
      exact State.exists_onPort fun _ => ⟨_, rfl⟩
    · rw [exec_swaponvsync_of_ne_null hf]
      exact State.exists_onPort fun _ => ⟨_, rfl⟩
  | _ => cases hi

/-- No presented word stops. -/
theorem Inv.exists_runWord (hI : Inv s) (w : CmdWord) : ∃ t, runWord w s = .next t := by
  unfold runWord
  split
  · exact ⟨_, rfl⟩
  · split
    · rename_i i hi
      exact hI.exists_exec_cmd (decodeCmd_format hi)
    · exact ⟨_, rfl⟩

/-- No phase stops: the cell `COL_DATA` reads exists (R63), and `PULSE` finds the FIFO empty (R197). -/
theorem Inv.exists_exec_phase (hI : Inv s) : ∃ t, exec s.seqPc.instr s = .next t := by
  cases hpc : s.seqPc with
  | top =>
    cases hstop : s.stopFlag with
    | true => exact ⟨_, exec_top_stop hstop⟩
    | false => exact ⟨_, exec_top_scan hstop⟩
  | colData =>
    obtain ⟨w, -, -, hexec⟩ := colDataDrivesTheStoredWord s hI
    exact ⟨_, hexec⟩
  | colClk =>
    obtain ⟨u, hexec, -⟩ := colClkStepsTheColumn s hI.legal hI.countersOk.2.2.1
    exact ⟨u, hexec⟩
  | planeWait =>
    by_cases hfifo : s.ptFifo = []
    · exact ⟨_, exec_planeWait_done hfifo⟩
    · exact ⟨_, exec_planeWait_busy hfifo⟩
  | rowWait =>
    by_cases hfifo : s.ptFifo = []
    · exact ⟨_, exec_rowWait_done hfifo⟩
    · exact ⟨_, exec_rowWait_busy hfifo⟩
  | pulse =>
    have hquiet := hI.quiescent_of_dark (by rw [hpc]; rfl)
    exact ⟨_, exec_pulse hI.legal hquiet.2.1⟩
  | rowClr | rowSet | colClr | planeClr | strobeSet | strobeClr | teardown | halt => exact ⟨_, rfl⟩

/-- No turn stops. -/
theorem Inv.exists_turn (hI : Inv s) (a : Agent) : ∃ t, s.turn a = .next t := by
  cases a with
  | host => exact ⟨_, rfl⟩
  | cmd =>
    show ∃ t, s.cmdTurn = .next t
    unfold State.cmdTurn
    split
    · split
      · exact (hI.unobserved none _ _ _ _ _).exists_runWord _
      · exact ⟨_, rfl⟩
    · split <;> exact ⟨_, rfl⟩
    · split <;> exact ⟨_, rfl⟩
  | seq => exact hI.exists_exec_phase
  | pt =>
    obtain ⟨t, ht⟩ := State.exists_tick hI.timerOk
    exact ⟨t, outcomeOf_eq_next.mpr ht⟩
  | t1m => exact ⟨_, rfl⟩

/-- Settles O53: the configuration is legal, and the turn that the step takes does not stop. -/
theorem noStepStopsFromTheInvariant : Obligations.NoStepStopsFromTheInvariant := by
  intro s hI
  rw [step_eq hI.legal, State.takeTurn_frame]
  exact Inv.exists_turn (hI.unobserved _ _ _ _ _ _) _

/-! ### The active frame -/

/-- Frames do not overlap (R61). -/
theorem inFrame_unique {c : Config} {f g : FrameId} {a : Nat} (hf : inFrame c f a) (hg : inFrame c g a) : f = g := by
  obtain ⟨hf1, hf2⟩ := hf
  obtain ⟨hg1, hg2⟩ := hg
  simp only [frameBase, ← Nat.succ_mul] at hf1 hf2 hg1 hg2
  have h1 : f.toNat < g.toNat + 1 := Nat.lt_of_mul_lt_mul_right (hf1.trans_lt hg2)
  have h2 : g.toNat < f.toNat + 1 := Nat.lt_of_mul_lt_mul_right (hg1.trans_lt hf2)
  exact BitVec.eq_of_toNat_eq (by omega)

/-- Words and settings of the frame that is active in `s` are in `t` as they are in `s`. -/
def keepsActiveFrame (s t : State) : Prop :=
  (∀ a, inFrame s.cfg s.active a → t.mem.read a = s.mem.read a) ∧ t.settings s.active = s.settings s.active

theorem keepsActiveFrame_of_eq (hmem : t.mem = s.mem) (hframes : t.frames = s.frames) : keepsActiveFrame s t :=
  ⟨fun _ _ => by rw [hmem], State.settings_congr s t hframes _⟩

/-- A command leaves the active frame (R68, R245, R246): what it writes belongs to a frame that is not active, or not yet created. -/
theorem CmdEffect.keepsActiveFrame (h : CmdEffect s t) (hI : Inv s) : keepsActiveFrame s t := by
  obtain ⟨-, -, hactive, -⟩ := hI.handoffOk
  have hwf := hI.memOk.1
  cases h with
  | same | answer | publish | stop => exact keepsActiveFrame_of_eq rfl rfl
  | draw f cs _ hw hcs =>
    refine ⟨fun a ha => Memory.read_patchAll_of_not_mem hwf cs a fun c hc haddr => hw.2 ?_, rfl⟩
    exact inFrame_unique (hcs hI.legal c hc).1 (haddr ▸ ha)
  | configure f st _ hw _ => exact ⟨fun _ _ => rfl, (State.settings_configured ..).trans (if_neg hw.2.symm)⟩
  | create _ hleft =>
    have hne : s.active ≠ s.numCreated := fun h => absurd hactive (by rw [State.created, h]; exact BitVec.lt_irrefl _)
    refine ⟨fun a ha => (Memory.read_zeroPatches hwf a).trans (if_neg fun hin => hne (inFrame_unique ha hin)), ?_⟩
    exact (State.settings_frameCreated _).trans (if_neg hne)

theorem CmdEffect.active (h : CmdEffect s t) : t.active = s.active := by cases h <;> rfl

/-- Of the phases only `TOP` may change the active frame, and only to the pending one (R222, R223). -/
theorem exec_phase_active {p : Phase} (h : exec p.instr s = .next t) (hne : t.active ≠ s.active) :
    p = .top ∧ s.pending = some t.active ∧ t.swapRet = some s.active ∧ t.pending = none := by
  cases p with
  | top =>
    rcases exec_top_next h with ⟨-, rfl⟩ | ⟨-, rfl⟩
    · exact absurd rfl hne
    · cases hp : s.pending with
      | none =>
        rw [State.pickup_of_none hp] at hne
        exact absurd rfl hne
      | some g =>
        rw [State.pickup_of_some hp]
        exact ⟨rfl, rfl, rfl, rfl⟩
  | rowClr | rowSet | colClr | planeClr | strobeSet | strobeClr | teardown | halt =>
    cases h
    exact absurd rfl hne
  | colData =>
    obtain ⟨w, -, rfl⟩ := exec_colData_next h
    exact absurd rfl hne
  | colClk =>
    by_cases hlast : s.seqX.toNat = s.cfg.columns - 1
    · cases (exec_colClk_last hlast).symm.trans h
      exact absurd rfl hne
    · cases (exec_colClk_step hlast).symm.trans h
      exact absurd rfl hne
  | planeWait =>
    rcases exec_planeWait_next h with ⟨-, rfl⟩ | ⟨-, rfl⟩ <;> exact absurd rfl hne
  | pulse =>
    obtain ⟨u, hu, rfl⟩ := exec_pulse_next h
    obtain ⟨hframe, -⟩ := State.sendPulse_frame hu
    rw [State.afterPulse_frame, hframe] at hne
    exact absurd rfl hne
  | rowWait =>
    rcases exec_rowWait_next h with ⟨-, rfl⟩ | ⟨-, rfl⟩
    · exact absurd rfl hne
    · rw [State.afterRow_frame] at hne
      exact absurd rfl hne

/-- No turn writes the frame that is active. -/
theorem TurnEffect.keepsActiveFrame (h : TurnEffect s t) (hI : Inv s) : Machine.keepsActiveFrame s t := by
  cases h with
  | same | present | count | completeSwap | completeStop => exact keepsActiveFrame_of_eq rfl rfl
  | tick t h => rw [State.tick_frame h]; exact keepsActiveFrame_of_eq rfl rfl
  | phase t h =>
    obtain ⟨-, hmem, hframes, -⟩ := exec_phase_keeps h
    exact keepsActiveFrame_of_eq hmem hframes
  | command t _ h => exact CmdEffect.keepsActiveFrame (s := { s with cmd := none }) h (hI.unobserved none _ _ _ _ _)

/-- A turn changes the active frame only by the pickup at `TOP`. -/
theorem TurnEffect.active (h : TurnEffect s t) (hne : t.active ≠ s.active) :
    s.seqPc = .top ∧ s.pending = some t.active ∧ t.swapRet = some s.active ∧ t.pending = none := by
  cases h with
  | same | present | count | completeSwap | completeStop => exact absurd rfl hne
  | tick t h =>
    rw [State.tick_frame h] at hne
    exact absurd rfl hne
  | phase t h => exact exec_phase_active h hne
  | command t _ h => exact absurd h.active hne

/-- Settles O56: by the turn that the step takes. -/
theorem refreshIsTearFree : Obligations.RefreshIsTearFree := by
  intro s t hI h
  obtain ⟨_, _, heffect⟩ := step_effect h
  exact ⟨heffect.active, heffect.keepsActiveFrame (hI.unobserved _ _ _ _ _ _)⟩

/-! ### Terminal states -/

/-- A block that does not scan has a halted sequencer and a quiescent timer (R30, R275). -/
theorem Inv.halted (hI : Inv s) (hrun : s.run ≠ .scanning) : s.seqPc = .halt ∧ s.quiescent := by
  have hpc : s.seqPc = .halt := by
    by_contra h
    exact hrun (hI.scanning h)
  exact ⟨hpc, hI.quiescent_of_dark (by rw [hpc]; rfl)⟩

/-- What `STOPPED` and `FAILED` keep. -/
def staysTerminal (s t : State) : Prop :=
  t.run = s.run ∧ t.seqPc = .halt ∧ t.trace = s.trace ∧ t.gpio = s.gpio ∧ t.mem = s.mem ∧ t.frames = s.frames ∧ t.quiescent

/-- A command in a terminal state can only answer (R248, R250). -/
theorem CmdEffect.staysTerminal (h : CmdEffect s t) (hI : Inv s) (hrun : s.run ≠ .scanning) : staysTerminal s t := by
  obtain ⟨hpc, hquiet⟩ := hI.halted hrun
  cases h with
  | same | answer => exact ⟨rfl, hpc, rfl, rfl, rfl, rfl, hquiet⟩
  | draw _ _ ha | configure _ _ ha | create ha | publish _ ha | stop ha => exact absurd ha.2 hrun

/-- No turn leaves a terminal state: the halted sequencer and the disabled timer change nothing. -/
theorem TurnEffect.staysTerminal (h : TurnEffect s t) (hI : Inv s) (hrun : s.run ≠ .scanning) : Machine.staysTerminal s t := by
  obtain ⟨hpc, hquiet⟩ := hI.halted hrun
  cases h with
  | same | present | count | completeSwap | completeStop => exact ⟨rfl, hpc, rfl, rfl, rfl, rfl, hquiet⟩
  | tick t h =>
    rw [State.tick_disabled hquiet.1] at h
    cases h
    exact ⟨rfl, hpc, rfl, rfl, rfl, rfl, hquiet⟩
  | phase t h =>
    rw [hpc] at h
    cases h
    exact ⟨rfl, hpc, rfl, rfl, rfl, rfl, hquiet⟩
  | command t _ h => exact CmdEffect.staysTerminal (s := { s with cmd := none }) h (hI.unobserved none _ _ _ _ _) hrun

/-- Settles O59: by the turn that the step takes. -/
theorem terminalStatesStay : Obligations.TerminalStatesStay := by
  intro s t hI hrun h
  obtain ⟨_, _, heffect⟩ := step_effect h
  exact heffect.staysTerminal (hI.unobserved _ _ _ _ _ _) hrun

end Sys2Proof.Machine

/-! ## How long an entry and a pulse last

The ticks of a run are counted down in natural numbers: `playerAt on per` is the player with `on` active ticks left of the `per` ticks
left of its period. A pulse is lit while entries or ticks are left, then the sentinels are played, which are dark. -/

namespace Sys2Proof.Machine

variable {s t u : State}

/-! ### Runs of ticks -/

theorem State.ticks_zero (s : State) : State.ticks 0 s = .ok s := rfl

theorem State.ticks_succ (k : Nat) (h : s.tick = .ok t) : State.ticks (k + 1) s = State.ticks k t := by
  rw [State.ticks, h]

/-- A tick more at the end of a run. -/
theorem State.ticks_succ_last {k : Nat} (h : State.ticks k s = .ok t) (ht : t.tick = .ok u) : State.ticks (k + 1) s = .ok u := by
  induction k generalizing s with
  | zero =>
    cases h
    rw [State.ticks_succ 0 ht, State.ticks_zero]
  | succ k ih =>
    cases hs : s.tick with
    | error e => rw [State.ticks, hs] at h; cases h
    | ok v =>
      rw [State.ticks_succ _ hs] at h ⊢
      exact ih h

/-! ### The player in natural numbers -/

/-- The player with `on` active ticks and `per` ticks of its period left, none when the period is over (R37). -/
def playerAt (on per : Nat) : Option Player := if per = 0 then none else some ⟨BitVec.ofNat 32 on, BitVec.ofNat 32 per⟩

theorem playerAt_zero (on : Nat) : playerAt on 0 = none := if_pos rfl

theorem playerAt_of_pos {on per : Nat} (h : 1 ≤ per) : playerAt on per = some ⟨BitVec.ofNat 32 on, BitVec.ofNat 32 per⟩ :=
  if_neg (Nat.one_le_iff_ne_zero.mp h)

/-- What is left of a pair after a tick (R200). -/
theorem Player.after_ofNat {on per : Nat} (hpos : 1 ≤ per) (hle : on ≤ per) (hlt : per < 2 ^ 32) :
    Player.after ⟨BitVec.ofNat 32 on, BitVec.ofNat 32 per⟩ = playerAt (on - 1) (per - 1) := by
  have hper : BitVec.ofNat 32 per - 1#32 = BitVec.ofNat 32 (per - 1) := by bv_omega
  have hon : (if 0#32 < BitVec.ofNat 32 on then BitVec.ofNat 32 on - 1#32 else 0#32) = BitVec.ofNat 32 (on - 1) := by
    split <;> bv_omega
  have hzero : BitVec.ofNat 32 (per - 1) = 0#32 ↔ per - 1 = 0 := by bv_omega
  simp only [Player.after, playerAt, hper, hon, hzero]

/-- The timer with the given holding stage and FIFO, `on` active ticks of `per` left to play, and the given level. -/
def State.playing (s : State) (on per : Nat) (hold : Option Word) (fifo : List Word) (oe : Bool) : State :=
  { s with ptFifo := fifo, ptHold := hold, ptCur := playerAt on per, oe := oe }

/-- Playing one tick of a pair takes one from both of its numbers; the output is active if an active tick was left (R200). -/
theorem State.played_eq_playing {on per : Nat} (hpos : 1 ≤ per) (hle : on ≤ per) (hlt : per < 2 ^ 32) (hold : Option Word)
    (fifo : List Word) :
    s.played ⟨BitVec.ofNat 32 on, BitVec.ofNat 32 per⟩ hold fifo = s.playing (on - 1) (per - 1) hold fifo (decide (0 < on)) := by
  have hlit : (0#32 < BitVec.ofNat 32 on) ↔ 0 < on := by bv_omega
  simp only [State.played, State.playing, Player.after_ofNat hpos hle hlt, hlit]

/-- An entry within the range is loaded as it is, with the range as its period (R200). -/
theorem playerOf_of_le {e r : Word} (h : e ≤ r) : playerOf e r = ⟨BitVec.ofNat 32 e.toNat, BitVec.ofNat 32 r.toNat⟩ := by
  simp [playerOf, h]

theorem one_le_toNat {r : Word} (h : r ≠ 0#32) : 1 ≤ r.toNat := by bv_omega

/-- A tick of a player with ticks left, the holding stage full or the FIFO empty (R200). -/
theorem State.tick_playing {on per : Nat} {hold : Option Word} {fifo : List Word} {oe : Bool} (hen : s.ptEn = true)
    (hr : s.ptRng ≠ 0#32) (hpos : 1 ≤ per) (hle : on ≤ per) (hlt : per < 2 ^ 32) (hstay : hold ≠ none ∨ fifo = []) :
    (s.playing on per hold fifo oe).tick = .ok (s.playing (on - 1) (per - 1) hold fifo (decide (0 < on))) :=
  (State.tick_of_player (s := s.playing on per hold fifo oe) hen hr (playerAt_of_pos hpos) hstay).trans
    (congrArg Except.ok (State.played_eq_playing (s := s) hpos hle hlt hold fifo))

/-- A tick that loads an entry within the range from the holding stage (R200). -/
theorem State.tick_load {on : Nat} {e : Word} {fifo : List Word} {oe : Bool} (hen : s.ptEn = true) (hr : s.ptRng ≠ 0#32)
    (he : e ≤ s.ptRng) :
    (s.playing on 0 (some e) fifo oe).tick =
      .ok (s.playing (e.toNat - 1) (s.ptRng.toNat - 1) fifo.head? fifo.tail (decide (0 < e.toNat))) := by
  have hload := State.tick_of_hold (s := s.playing on 0 (some e) fifo oe) hen hr (playerAt_zero on) rfl
  rw [hload]
  change Except.ok (s.played (playerOf e s.ptRng) fifo.head? fifo.tail) = _
  rw [playerOf_of_le he, State.played_eq_playing (one_le_toNat hr) he s.ptRng.isLt]

/-- A tick that loads an entry within the range from the FIFO of an empty timer (R200). -/
theorem State.tick_load_fifo {e : Word} {q : List Word} (hen : s.ptEn = true) (hr : s.ptRng ≠ 0#32) (hcur : s.ptCur = none)
    (hhold : s.ptHold = none) (hfifo : s.ptFifo = e :: q) (he : e ≤ s.ptRng) :
    s.tick = .ok (s.playing (e.toNat - 1) (s.ptRng.toNat - 1) q.head? q.tail (decide (0 < e.toNat))) := by
  rw [State.tick_of_fifo hen hr hcur hhold hfifo, playerOf_of_le he, State.played_eq_playing (one_le_toNat hr) he s.ptRng.isLt]

/-- The ticks of one entry (R200). -/
theorem State.ticks_entry {e : Word} (hen : s.ptEn = true) (hcur : s.ptCur = none) (hhold : s.ptHold = none)
    (hfifo : s.ptFifo = [e]) (he : e ≤ s.ptRng) {k : Nat} (h1 : 1 ≤ k) (hk : k ≤ s.ptRng.toNat) :
    State.ticks k s = .ok (s.playing (e.toNat - k) (s.ptRng.toNat - k) none [] (decide (k ≤ e.toNat))) := by
  have hr : s.ptRng ≠ 0#32 := by bv_omega
  have hlt := s.ptRng.isLt
  have hle : e.toNat ≤ s.ptRng.toNat := he
  induction k, h1 using Nat.le_induction with
  | base => exact State.ticks_succ_last (State.ticks_zero s) (State.tick_load_fifo hen hr hcur hhold hfifo he)
  | succ k h1 ih =>
    refine (State.ticks_succ_last (ih (by omega)) (State.tick_playing hen hr (by omega) (by omega) (by omega) (.inr rfl))).trans ?_
    have hlit : 0 < e.toNat - k ↔ k + 1 ≤ e.toNat := by omega
    simp only [Nat.sub_sub, hlit]

/-- Settles O47: the timer in natural numbers after `k` ticks. -/
theorem entryPlaysItsPeriod : Obligations.EntryPlaysItsPeriod := by
  intro s e k hen hcur hhold hfifo he h1 hk
  exact ⟨_, State.ticks_entry hen hcur hhold hfifo he h1 hk, decide_eq_true_iff, rfl⟩

/-! ### A whole pulse -/

/-- A timer that has been programmed with `m` entries equal to the range, and the sentinels, and has not ticked yet (R193). -/
structure State.Armed (s : State) (m : Nat) : Prop where
  en : s.ptEn = true
  rng : s.ptRng ≠ 0#32
  cur : s.ptCur = none
  hold : s.ptHold = none
  count : 1 ≤ m
  fifo : s.ptFifo = List.replicate m s.ptRng ++ [0#32, 0#32]

/-- The timer of `s` in the middle of its pulse, with `rem` lit ticks to come: `n` whole entries queued, and `j` ticks left of the one
being played. -/
def State.lighting (s : State) (rem : Nat) (u : State) : Prop :=
  ∃ n j h q, h :: q = List.replicate n s.ptRng ++ [0#32, 0#32] ∧ rem = n * s.ptRng.toNat + j ∧ j ≤ s.ptRng.toNat ∧
    u = s.playing j j (some h) q true

/-- The first entry of a queue fills the holding stage, and the sentinels keep the queue from running out. -/
theorem exists_queue (n : Nat) (r : Word) : ∃ h q, h :: q = List.replicate n r ++ [0#32, 0#32] := by
  cases n with
  | zero => exact ⟨_, _, rfl⟩
  | succ n => exact ⟨_, _, rfl⟩

/-- The first tick of a pulse is lit (R200, R202 a). -/
theorem State.Armed.first_tick {m : Nat} (h : s.Armed m) :
    ∃ u, s.tick = .ok u ∧ s.lighting (m * s.ptRng.toNat - 1) u := by
  obtain ⟨hen, hr, hcur, hhold, hm, hfifo⟩ := h
  obtain ⟨n, rfl⟩ := Nat.exists_eq_add_of_le' hm
  obtain ⟨e, q, hq⟩ := exists_queue n s.ptRng
  have hpos := one_le_toNat hr
  have hqueue : s.ptFifo = s.ptRng :: e :: q := by rw [hfifo, hq]; rfl
  have hlit : decide (0 < s.ptRng.toNat) = true := decide_eq_true hpos
  have htick := State.tick_load_fifo hen hr hcur hhold hqueue (BitVec.le_refl _)
  rw [hlit] at htick
  refine ⟨_, htick, n, s.ptRng.toNat - 1, e, q, hq, ?_, Nat.sub_le _ _, rfl⟩
  rw [Nat.add_mul, Nat.one_mul, Nat.add_sub_assoc hpos]

/-- While lit ticks are to come the next tick is lit (R200): of the entry being played, or of the next one. -/
theorem State.lighting_tick {rem : Nat} (hen : s.ptEn = true) (hr : s.ptRng ≠ 0#32) (h : s.lighting (rem + 1) u) :
    ∃ v, u.tick = .ok v ∧ s.lighting rem v := by
  obtain ⟨n, j, e, q, hq, hrem, hj, rfl⟩ := h
  have hpos := one_le_toNat hr
  have hlt := s.ptRng.isLt
  cases j with
  | succ j =>
    have htick := State.tick_playing (s := s) (oe := true) (hold := some e) (fifo := q) hen hr (Nat.succ_pos j) le_rfl (by omega)
      (.inl (by simp))
    exact ⟨_, htick, n, j, e, q, hq, by omega, by omega, rfl⟩
  | zero =>
    cases n with
    | zero => omega
    | succ n =>
      obtain ⟨e', q', hq'⟩ := exists_queue n s.ptRng
      rw [List.replicate_succ, List.cons_append, ← hq'] at hq
      cases hq
      have htick := State.tick_load (s := s) (on := 0) (oe := true) (fifo := e' :: q') hen hr (BitVec.le_refl _)
      have hlit : decide (0 < s.ptRng.toNat) = true := decide_eq_true hpos
      rw [hlit] at htick
      refine ⟨_, htick, n, s.ptRng.toNat - 1, e', q', hq', ?_, Nat.sub_le _ _, rfl⟩
      rw [Nat.add_mul, Nat.one_mul] at hrem
      omega

/-- The pulse is over and the FIFO is empty, and the timer may tick on (R201, R202 c). -/
structure State.Spent (s : State) : Prop where
  en : s.ptEn = true
  rng : s.ptRng ≠ 0#32
  cur : ∀ c ∈ s.ptCur, c.ok
  shape : s.pulseShape
  fifo : s.ptFifo = []

/-- With no lit tick to come, the next tick plays the first sentinel and takes the second from the FIFO (R201). -/
theorem State.lighting_last_tick (hen : s.ptEn = true) (hr : s.ptRng ≠ 0#32) (h : s.lighting 0 u) :
    ∃ v, u.tick = .ok v ∧ v.Spent := by
  obtain ⟨n, j, e, q, hq, hrem, -, rfl⟩ := h
  have hpos := one_le_toNat hr
  obtain rfl : j = 0 := by omega
  obtain rfl : n = 0 := by
    by_contra hn
    have := Nat.mul_pos (Nat.pos_of_ne_zero hn) hpos
    omega
  cases hq
  have htick := State.tick_of_hold (s := s.playing 0 0 (some 0#32) [0#32] true) hen hr (playerAt_zero 0) rfl
  have hzero := playerOf_ok hr 0#32
  exact ⟨_, htick, hen, hr, fun c hc => (Player.after_ok hzero hc).1,
    State.played_shape_of_over hzero (playerOf_zero _) fun e he => by cases he; rfl, rfl⟩

/-- A spent pulse stays spent. -/
theorem State.Spent.tick (h : s.Spent) : ∃ t, s.tick = .ok t ∧ t.Spent := by
  obtain ⟨hen, hr, hcur, hshape, hfifo⟩ := h
  have htick := State.tick_enabled hen hr
  refine ⟨_, htick, ?_⟩
  have hshape' := State.tick_pulseShape hen hr hcur hshape htick
  rcases State.tick_eq_or_played (fun _ => hr) hcur htick with heq | ⟨c, hold, fifo, hc, hlen, heq⟩
  · rw [heq]
    exact ⟨hen, hr, hcur, hshape, hfifo⟩
  · rw [heq] at hshape' ⊢
    refine ⟨hen, hr, fun d hd => (Player.after_ok hc hd).1, hshape', ?_⟩
    show fifo = []
    simpa [hfifo] using hlen

/-- The lit ticks of a pulse. -/
theorem State.Armed.ticks_lit {m : Nat} (h : s.Armed m) {k : Nat} (h1 : 1 ≤ k) (hk : k ≤ m * s.ptRng.toNat) :
    ∃ u, State.ticks k s = .ok u ∧ s.lighting (m * s.ptRng.toNat - k) u := by
  induction k, h1 using Nat.le_induction with
  | base =>
    obtain ⟨u, htick, hlit⟩ := h.first_tick
    exact ⟨u, State.ticks_succ_last (State.ticks_zero s) htick, hlit⟩
  | succ k h1 ih =>
    obtain ⟨u, hticks, hlit⟩ := ih (by omega)
    rw [show m * s.ptRng.toNat - k = m * s.ptRng.toNat - (k + 1) + 1 by omega] at hlit
    obtain ⟨v, htick, hlit⟩ := State.lighting_tick h.en h.rng hlit
    exact ⟨v, State.ticks_succ_last hticks htick, hlit⟩

/-- The ticks after them. -/
theorem State.Armed.ticks_spent {m : Nat} (h : s.Armed m) {k : Nat} (hk : m * s.ptRng.toNat + 1 ≤ k) :
    ∃ u, State.ticks k s = .ok u ∧ u.Spent := by
  induction k, hk using Nat.le_induction with
  | base =>
    have hpos : 1 ≤ m * s.ptRng.toNat := Nat.mul_pos h.count (one_le_toNat h.rng)
    obtain ⟨u, hticks, hlit⟩ := h.ticks_lit hpos le_rfl
    rw [Nat.sub_self] at hlit
    obtain ⟨v, htick, hspent⟩ := State.lighting_last_tick h.en h.rng hlit
    exact ⟨v, State.ticks_succ_last hticks htick, hspent⟩
  | succ k _ ih =>
    obtain ⟨u, hticks, hspent⟩ := ih
    obtain ⟨v, htick, hspent⟩ := hspent.tick
    exact ⟨v, State.ticks_succ_last hticks htick, hspent⟩

/-- In the middle of a pulse the output is active and the FIFO holds an entry. -/
theorem State.lighting_oe_fifo {rem : Nat} (h : s.lighting rem u) : u.oe = true ∧ u.ptFifo ≠ [] := by
  obtain ⟨n, j, e, q, hq, -, -, rfl⟩ := h
  refine ⟨rfl, fun hnil => ?_⟩
  replace hnil : q = [] := hnil
  have hlen := congrArg List.length hq
  simp [hnil] at hlen

/-- A pulse of `m` entries is lit for `m` times the range, and its FIFO is empty from the next tick on (R202 a, b). -/
theorem State.Armed.ticks {m : Nat} (h : s.Armed m) {k : Nat} (h1 : 1 ≤ k) :
    ∃ u, State.ticks k s = .ok u ∧ (u.oe = true ↔ k ≤ m * s.ptRng.toNat) ∧ (u.ptFifo = [] ↔ m * s.ptRng.toNat < k) := by
  rcases Nat.lt_or_ge (m * s.ptRng.toNat) k with hk | hk
  · obtain ⟨u, hticks, hspent⟩ := h.ticks_spent hk
    refine ⟨u, hticks, ?_, by simp [hspent.fifo, hk]⟩
    simp [State.dark_of_pulseShape hspent.shape hspent.fifo, hk]
  · obtain ⟨u, hticks, hlit⟩ := h.ticks_lit h1 hk
    obtain ⟨hoe, hfifo⟩ := State.lighting_oe_fifo hlit
    exact ⟨u, hticks, by simp [hoe, hk], by simp [hfifo, hk]⟩

/-- `PULSE` arms a quiescent timer for the duration of its plane (R175, R193). -/
theorem State.armed_afterPulse (hl : s.cfg.legal = true) (hp : s.seqP.toNat < s.cfg.n) (hq : s.quiescent) :
    s.pulseSent.afterPulse.Armed (pulseCount s.cfg s.seqP.toNat) ∧
      pulseCount s.cfg s.seqP.toNat * s.pulseSent.afterPulse.ptRng.toNat = s.cfg.baseTicks * 2 ^ s.seqP.toNat := by
  obtain ⟨-, -, hhold, hcur, -⟩ := hq
  rw [State.afterPulse_frame]
  refine ⟨⟨rfl, legal_range_ne_zero hl hp, hcur, hhold, (pulseCount_bounds hl _).1, rfl⟩, ?_⟩
  exact (congrArg (_ * ·) (pulseRange_toNat hl hp)).trans (pulseCount_mul_pulseRange hl hp)

/-- Settles O48: `PULSE` runs from a quiescent timer, which it arms. -/
theorem exposureLastsItsTicks : Obligations.ExposureLastsItsTicks := by
  intro s t k hI hpc hexec h1
  obtain ⟨-, hp, -, -⟩ := hI.countersOk
  have hquiet := hI.quiescent_of_dark (by rw [hpc]; rfl)
  cases (exec_pulse hI.legal hquiet.2.1).symm.trans hexec
  obtain ⟨harmed, hdur⟩ := State.armed_afterPulse hI.legal hp hquiet
  obtain ⟨u, hticks, hoe, hfifo⟩ := harmed.ticks h1
  rw [hdur] at hoe hfifo
  exact ⟨u, hticks, hoe, List.isEmpty_iff.trans hfifo⟩

end Sys2Proof.Machine

/-! ## The events of a refresh, counted -/

namespace Sys2Proof.Machine

theorem columnEvents_succ (w : Nat → Word) (n : Nat) :
    columnEvents w (n + 1) = columnEvents w n ++ [.gpioClr colorClkMask, .gpioSet (w n &&& colorMask), .gpioSet clkMask] := by
  simp [columnEvents, List.range_succ]

theorem length_columnEvents (w : Nat → Word) (n : Nat) : (columnEvents w n).length = 3 * n := by
  induction n with
  | zero => rfl
  | succ n ih => rw [columnEvents_succ, List.length_append, ih, Nat.mul_succ]; rfl

/-- The range, the entries, two sentinels and the enabling write (R193). -/
theorem length_pulseWrites (c : Config) (p : Nat) : (pulseWrites c p).length = pulseCount c p + 4 := by
  simp [pulseWrites, pulseEntries]

/-- The events of one plane (R162 steps 2a to 2d, R180). -/
theorem length_planeEvents (c : Config) (w : Nat → Word) (p : Nat) :
    (planeEvents c w p).length = 3 * c.columns + 8 + pulseCount c p := by
  simp only [planeEvents, List.length_append, length_columnEvents, List.length_map, length_pulseWrites, List.length_cons,
    List.length_nil]
  omega

theorem length_rowEvents (c : Config) (m : Memory) (f : FrameId) (ps : List Nat) (d : Nat) :
    (rowEvents c m f ps d).length = 3 + (ps.map fun p => 3 * c.columns + 8 + pulseCount c p).sum := by
  simp only [rowEvents, List.length_append, List.length_flatMap, length_planeEvents, List.length_cons, List.length_nil]
  omega

theorem length_refreshEvents (s : State) :
    s.refreshEvents.length = s.cfg.half *
      (3 + ((activePlanes s.cfg.n (s.settings s.active).pwmBits).map fun p => 3 * s.cfg.columns + 8 + pulseCount s.cfg p).sum) := by
  simp only [State.refreshEvents, List.length_flatMap, length_rowEvents, List.map_const', List.length_range, List.sum_replicate,
    smul_eq_mul]

/-- The number of entries of a plane, by whether its duration is split (R192). -/
theorem pulseCount_eq {c : Config} (hl : c.legal = true) (p : Nat) :
    pulseCount c p = if c.widthLimit < c.baseTicks * 2 ^ p then 8 else 1 := by
  obtain ⟨-, -, -, -, -, ⟨hfactor, -⟩, -⟩ := (legal_iff c).mp hl
  rw [pulseCount, hfactor]
  simp only [isSplit_iff]

/-- Settles O44: the events of a plane, of a half-row and of the refresh, counted. -/
theorem refreshEventCount : Obligations.RefreshEventCount := by
  intro s hl
  rw [length_refreshEvents]
  simp only [pulseCount_eq hl]

end Sys2Proof.Machine

/-! ## One plane is clocked out

`SeqPath` is a run of sequencer turns none of which waits, so it is a run of `seqTurns` and one of the schedule of V62 as well. The
states along it are those before it with events driven and counters set. -/

namespace Sys2Proof.Machine

variable {s t u : State}

/-- The state after a list of events, in a given column and phase: the levels they make of the pins, and the trace grown by them
(R11, R66). -/
def State.scanned (s : State) (es : List Event) (x : BitVec 16) (p : Phase) : State :=
  { s with gpio := es.foldl gpioAfter s.gpio, trace := s.trace ++ es, seqX := x, seqPc := p }

@[simp] theorem State.scanned_scanned (s : State) (a b : List Event) (x y : BitVec 16) (p q : Phase) :
    (s.scanned a x p).scanned b y q = s.scanned (a ++ b) y q := by
  simp [State.scanned, List.foldl_append]

@[simp] theorem State.scanned_nil (s : State) : s.scanned [] s.seqX s.seqPc = s := by simp [State.scanned]

/-- `k` turns of the sequencer lead from one state to another, and it does not wait in any of them. -/
inductive SeqPath : Nat → State → State → Prop
  | nil (s : State) : SeqPath 0 s s
  | cons {k : Nat} {s t u : State} (hw : s.seqWaits = false) (h : s.seqTurn = .next t) (rest : SeqPath k t u) : SeqPath (k + 1) s u

theorem SeqPath.trans {a b : Nat} (h : SeqPath a s t) (h' : SeqPath b t u) : SeqPath (a + b) s u := by
  induction h with
  | nil => rwa [Nat.zero_add]
  | cons hw hturn _ ih => exact Nat.succ_add_eq_add_succ _ b ▸ .cons hw hturn (ih h')

theorem SeqPath.seqTurns {k : Nat} (h : SeqPath k s t) : State.seqTurns k s = .next t := by
  induction h with
  | nil => rfl
  | cons _ hturn _ ih => rw [State.seqTurns, hturn]; exact ih

/-- A turn in a phase that is no wait. -/
theorem SeqPath.single {p : Phase} (hpc : s.seqPc = p) (hp : p ≠ .planeWait ∧ p ≠ .rowWait) (h : exec p.instr s = .next t) :
    SeqPath 1 s t := by
  refine .cons (by simp [State.seqWaits, hpc, hp]) ?_ (.nil t)
  rw [State.seqTurn, hpc]
  exact h

/-- The cells that the scan-out reads in this half-row and plane exist (R61). -/
structure State.Scannable (s : State) : Prop where
  legal : s.cfg.legal = true
  frame : s.active.toNat < s.cfg.numFrames
  row : s.seqD.toNat < s.cfg.half
  plane : s.seqP.toNat < s.cfg.n

/-- The stored word of a column of the current half-row and plane. -/
def State.planeWord (s : State) (x : Nat) : Word :=
  s.mem.read (cellAddr s.cfg s.active.toNat s.seqD.toNat s.seqP.toNat x)

theorem State.Scannable.scanned (h : s.Scannable) (es : List Event) (x : BitVec 16) (p : Phase) : (s.scanned es x p).Scannable :=
  ⟨h.legal, h.frame, h.row, h.plane⟩

@[simp] theorem State.planeWord_scanned (s : State) (es : List Event) (x : BitVec 16) (p : Phase) :
    (s.scanned es x p).planeWord = s.planeWord := rfl

/-- The events of one column (R162 step 2a). -/
abbrev columnTriple (w : Word) : List Event := [.gpioClr colorClkMask, .gpioSet (w &&& colorMask), .gpioSet clkMask]

/-- The first two writes of a column (R168, R169). -/
theorem State.Scannable.column_data (h : s.Scannable) (hpc : s.seqPc = .colClr) (hx : s.seqX.toNat < s.cfg.columns) :
    SeqPath 2 s (s.scanned [.gpioClr colorClkMask, .gpioSet (s.planeWord s.seqX.toNat &&& colorMask)] s.seqX .colClk) := by
  have hclr : SeqPath 1 s (s.scanned [.gpioClr colorClkMask] s.seqX .colData) := .single hpc (by simp) (exec_colClr s)
  have hcells := h.scanned [.gpioClr colorClkMask] s.seqX .colData
  have hdata := SeqPath.single (s := s.scanned [.gpioClr colorClkMask] s.seqX .colData)
    (p := .colData)
    (t := (s.scanned [.gpioClr colorClkMask] s.seqX .colData).scanned [.gpioSet (s.planeWord s.seqX.toNat &&& colorMask)] s.seqX
      .colClk) rfl (by simp) (exec_colData hcells.frame hcells.row hcells.plane hx)
  rw [State.scanned_scanned] at hdata
  exact hclr.trans hdata

/-- A column before the last (R168 to R170). -/
theorem State.Scannable.column_step (h : s.Scannable) (hpc : s.seqPc = .colClr) (hx : s.seqX.toNat < s.cfg.columns - 1) :
    SeqPath 3 s (s.scanned (columnTriple (s.planeWord s.seqX.toNat)) (s.seqX + 1#16) .colClr) := by
  have hdata := h.column_data hpc (by omega)
  have hclk := SeqPath.single
    (s := s.scanned [.gpioClr colorClkMask, .gpioSet (s.planeWord s.seqX.toNat &&& colorMask)] s.seqX .colClk) (p := .colClk)
    (t := (s.scanned [.gpioClr colorClkMask, .gpioSet (s.planeWord s.seqX.toNat &&& colorMask)] s.seqX .colClk).scanned
      [.gpioSet clkMask] (s.seqX + 1#16) .colClr) rfl (by simp) (exec_colClk_step (Nat.ne_of_lt hx))
  rw [State.scanned_scanned] at hclk
  exact hdata.trans hclk

/-- The last column (R168 to R170). -/
theorem State.Scannable.column_last (h : s.Scannable) (hpc : s.seqPc = .colClr) (hx : s.seqX.toNat = s.cfg.columns - 1) :
    SeqPath 3 s (s.scanned (columnTriple (s.planeWord s.seqX.toNat)) s.seqX .planeClr) := by
  obtain ⟨-, ⟨hcolumns, -⟩, -⟩ := (legal_iff _).mp h.legal
  have hdata := h.column_data hpc (by omega)
  have hclk := SeqPath.single
    (s := s.scanned [.gpioClr colorClkMask, .gpioSet (s.planeWord s.seqX.toNat &&& colorMask)] s.seqX .colClk) (p := .colClk)
    (t := (s.scanned [.gpioClr colorClkMask, .gpioSet (s.planeWord s.seqX.toNat &&& colorMask)] s.seqX .colClk).scanned
      [.gpioSet clkMask] s.seqX .planeClr) rfl (by simp) (exec_colClk_last hx)
  rw [State.scanned_scanned] at hclk
  exact hdata.trans hclk

/-- The columns before the last, in order (R162 step 2a). -/
theorem State.Scannable.columns (h : s.Scannable) (hpc : s.seqPc = .colClr) (hx : s.seqX = 0#16) {n : Nat}
    (hn : n ≤ s.cfg.columns - 1) :
    SeqPath (3 * n) s (s.scanned (columnEvents s.planeWord n) (BitVec.ofNat 16 n) .colClr) := by
  obtain ⟨-, ⟨-, hcolumns⟩, -⟩ := (legal_iff _).mp h.legal
  induction n with
  | zero =>
    have hstart : s.scanned (columnEvents s.planeWord 0) (BitVec.ofNat 16 0) .colClr = s := by
      rw [← hpc, ← hx]
      exact s.scanned_nil
    rw [hstart]
    exact .nil s
  | succ n ih =>
    have hlt : n < s.cfg.columns - 1 := hn
    have hcol : (BitVec.ofNat 16 n).toNat = n := Nat.mod_eq_of_lt (by omega)
    have hstep := State.Scannable.column_step (s := s.scanned (columnEvents s.planeWord n) (BitVec.ofNat 16 n) .colClr)
      (h.scanned _ _ _) rfl (hcol.trans_lt hlt)
    have hpath := (ih (by omega)).trans hstep
    rw [State.scanned_scanned, State.planeWord_scanned] at hpath
    rw [columnEvents_succ, BitVec.ofNat_add]
    simp only [State.scanned, hcol] at hpath
    exact hpath

/-- All columns of a plane, and the clear after them (R162 steps 2a and 2b). -/
theorem State.Scannable.plane_path (h : s.Scannable) (hpc : s.seqPc = .colClr) (hx : s.seqX = 0#16) :
    SeqPath (3 * s.cfg.columns + 1) s
      (s.scanned (columnEvents s.planeWord s.cfg.columns ++ [.gpioClr colorClkMask]) (BitVec.ofNat 16 (s.cfg.columns - 1))
        .planeWait) := by
  obtain ⟨-, ⟨hpos, hcolumns⟩, -⟩ := (legal_iff _).mp h.legal
  obtain ⟨n, hn⟩ := Nat.exists_eq_add_of_le' hpos
  have hlast : n = s.cfg.columns - 1 := by omega
  have hcol : (BitVec.ofNat 16 n).toNat = n := Nat.mod_eq_of_lt (by omega)
  have hcolumn := h.columns hpc hx hlast.le
  have hlastcol := State.Scannable.column_last (s := s.scanned (columnEvents s.planeWord n) (BitVec.ofNat 16 n) .colClr)
    (h.scanned _ _ _) rfl (hcol.trans hlast)
  have hwhole : SeqPath (3 * n + 3) s
      (s.scanned (columnEvents s.planeWord s.cfg.columns) (BitVec.ofNat 16 n) .planeClr) := by
    have hpath := hcolumn.trans hlastcol
    rw [State.scanned_scanned, State.planeWord_scanned] at hpath
    rw [hn, columnEvents_succ]
    simp only [State.scanned, hcol] at hpath
    exact hpath
  have hclr := SeqPath.single (s := s.scanned (columnEvents s.planeWord s.cfg.columns) (BitVec.ofNat 16 n) .planeClr) (p := .planeClr)
    (t := (s.scanned (columnEvents s.planeWord s.cfg.columns) (BitVec.ofNat 16 n) .planeClr).scanned [.gpioClr colorClkMask]
      (BitVec.ofNat 16 n) .planeWait) rfl (by simp) (exec_planeClr _)
  rw [State.scanned_scanned] at hclr
  rw [← hlast, show 3 * s.cfg.columns + 1 = 3 * n + 3 + 1 by omega]
  exact hwhole.trans hclr

/-- In a state of the invariant the cells that the scan-out reads exist. -/
theorem Inv.scannable (hI : Inv s) : s.Scannable :=
  ⟨hI.legal, hI.frame_lt hI.handoffOk.2.2.1, hI.countersOk.1, hI.countersOk.2.1⟩

/-- The last column's number fits its register (R6, R33). -/
theorem lastColumn_toNat {c : Config} (hl : c.legal = true) : (BitVec.ofNat 16 (c.columns - 1)).toNat = c.columns - 1 := by
  obtain ⟨-, ⟨-, hcolumns⟩, -⟩ := (legal_iff c).mp hl
  exact Nat.mod_eq_of_lt (by omega)

/-- Settles O41: the path of the plane, as turns of the sequencer. -/
theorem planeIsClockedOutInOrder : Obligations.PlaneIsClockedOutInOrder := by
  intro s hI hpc hx
  exact ⟨_, (hI.scannable.plane_path hpc hx).seqTurns, rfl, lastColumn_toNat hI.legal, (List.append_assoc ..).symm⟩

end Sys2Proof.Machine

/-! ## The panel, replayed over the events of a plane

A plane fills the shift register with its words, the last column first; the strobe, low before, latches them. -/

namespace Sys2Proof.Machine

variable {c : Config}

/-- Lists of events are replayed one after the other. -/
theorem Panel.replay_append (p : Panel) (g : Word) (a b : List Event) :
    p.replay c g (a ++ b) = (p.replay c g a).replay c (a.foldl gpioAfter g) b := by
  induction a generalizing p g with
  | nil => rfl
  | cons e a ih => exact ih _ _

/-- What the panel sees of a run is what the trace has grown by (R11, R183). -/
theorem Panel.watch_eq_replay {s t : State} {es : List Event} (p : Panel) (h : t.trace = s.trace ++ es) :
    p.watch s t = p.replay s.cfg s.gpio es := by
  rw [Panel.watch, h, List.drop_left]

/-- Clock and strobe edges only come from writes that set those pins. -/
theorem Panel.onEvent_gpioSet_quiet {m : Word} (p : Panel) (g : Word) (hclk : m.getLsbD 17 = false) (hstrobe : m.getLsbD 4 = false) :
    p.onEvent c g (.gpioSet m) = p := by
  simp only [Panel.onEvent, hclk, hstrobe, Bool.false_and, Bool.false_eq_true, if_false]

/-- Writes to the timer do nothing to the panel or the pins. -/
theorem Panel.replay_ptWrites (p : Panel) (g : Word) (ws : List PtWrite) : p.replay c g (ws.map .ptWrite) = p := by
  induction ws with
  | nil => rfl
  | cons w ws ih => exact ih

/-- Neither the clock nor the strobe is a colour pin (R14). -/
theorem colorMask_no_edge (w : Word) : (w &&& colorMask).getLsbD 17 = false ∧ (w &&& colorMask).getLsbD 4 = false := by
  have hmask : colorMask.getLsbD 17 = false ∧ colorMask.getLsbD 4 = false := by decide
  rw [BitVec.getLsbD_and, BitVec.getLsbD_and, hmask.1, hmask.2]
  exact ⟨Bool.and_false _, Bool.and_false _⟩

/-- With the clock low and the colours clear, the colour bits are driven as they are, and the clock stays low. -/
theorem levels_after_colData (g w : Word) :
    (g &&& ~~~colorClkMask ||| w &&& colorMask).getLsbD 17 = false ∧
      (g &&& ~~~colorClkMask ||| w &&& colorMask) &&& colorMask = w &&& colorMask := by
  have hclear : (~~~colorClkMask).getLsbD 17 = false ∧ ~~~colorClkMask &&& colorMask = 0#32 := by decide
  refine ⟨?_, ?_⟩
  · rw [BitVec.getLsbD_or, BitVec.getLsbD_and, hclear.1, (colorMask_no_edge w).1, Bool.and_false, Bool.or_false]
  · rw [BitVec.and_comm, BitVec.and_or_distrib_left, ← BitVec.and_assoc, ← BitVec.and_assoc, BitVec.and_comm colorMask g,
      BitVec.and_assoc g, BitVec.and_comm colorMask, hclear.2, BitVec.and_zero, BitVec.zero_or, BitVec.and_comm colorMask w,
      BitVec.and_assoc, BitVec.and_self]

/-- One column shifts its colour bits in (R183). -/
theorem Panel.replay_columnTriple (p : Panel) (g w : Word) :
    p.replay c g (columnTriple w) = { p with sr := (w &&& colorMask) :: p.sr.take (c.columns - 1) } := by
  obtain ⟨hclk, hstrobe⟩ := colorMask_no_edge w
  obtain ⟨hlow, hcolor⟩ := levels_after_colData g w
  have hedge : clkMask.getLsbD 17 = true ∧ clkMask.getLsbD 4 = false := by decide
  change (p.onEvent c _ (.gpioSet (w &&& colorMask))).onEvent c (g &&& ~~~colorClkMask ||| w &&& colorMask) (.gpioSet clkMask) = _
  rw [Panel.onEvent_gpioSet_quiet p _ hclk hstrobe]
  simp only [Panel.onEvent, Panel.shift, hedge, hlow, hcolor, Bool.not_false, Bool.and_self, if_true, Bool.false_and,
    Bool.false_eq_true, if_false]

/-- The columns shifted in so far stand at the front of the register, the last one first (R183). -/
theorem Panel.replay_columnEvents (p : Panel) (g : Word) (w : Nat → Word) {n : Nat} (hlen : p.sr.length = c.columns)
    (hpos : 1 ≤ c.columns) :
    p.replay c g (columnEvents w n) =
      { p with sr := ((List.range n).reverse.map (fun x => w x &&& colorMask) ++ p.sr).take c.columns } := by
  induction n with
  | zero => simp [columnEvents, Panel.replay, ← hlen]
  | succ n ih =>
    obtain ⟨m, hm⟩ := Nat.exists_eq_add_of_le' hpos
    rw [columnEvents_succ, Panel.replay_append, ih, Panel.replay_columnTriple, List.range_succ, List.reverse_append, hm]
    simp [List.take_take]

/-- The shift register when all columns of a plane are in (R183). -/
def planeRegister (c : Config) (w : Nat → Word) : List Word := (List.range c.columns).reverse.map fun x => w x &&& colorMask

@[simp] theorem length_planeRegister (c : Config) (w : Nat → Word) : (planeRegister c w).length = c.columns := by
  simp [planeRegister]

/-- Column `x` stands at position `COLUMNS - 1 - x` (R183). -/
theorem getElem?_planeRegister (w : Nat → Word) {x : Nat} (hx : x < c.columns) :
    (planeRegister c w)[c.columns - 1 - x]? = some (w x &&& colorMask) := by
  have hj : c.columns - 1 - x < (List.range c.columns).length := by
    rw [List.length_range]
    omega
  have hcol : c.columns - 1 - (c.columns - 1 - x) = x := by omega
  rw [planeRegister, List.getElem?_map, List.getElem?_reverse hj, List.length_range, hcol, List.getElem?_range hx]
  rfl

/-- All columns of a plane, and the clear after them (R162 steps 2a and 2b). -/
theorem Panel.replay_plane (p : Panel) (g : Word) (w : Nat → Word) (hlen : p.sr.length = c.columns) (hpos : 1 ≤ c.columns) :
    p.replay c g (columnEvents w c.columns ++ [.gpioClr colorClkMask]) = { p with sr := planeRegister c w } := by
  have htake : ((List.range c.columns).reverse.map (fun x => w x &&& colorMask) ++ p.sr).take c.columns = planeRegister c w :=
    List.take_left' (length_planeRegister c w)
  rw [Panel.replay_append, Panel.replay_columnEvents p g w hlen hpos, htake]
  rfl

/-- The words of the active frame that the scan-out reads are colour bits only (R50 a). -/
theorem Inv.planeWord_color {s : State} (hI : Inv s) {x : Nat} (hx : x < s.cfg.columns) : s.planeWord x &&& colorMask = s.planeWord x := by
  obtain ⟨-, -, hactive, -⟩ := hI.handoffOk
  obtain ⟨hd, hp, -, -⟩ := hI.countersOk
  exact and_colorMask (hI.read_color hactive (inFrame_cell hd hp hx))

/-- Settles O42: the turns end where the path of O41 ends, and the panel replays its events. -/
theorem shiftRegisterHoldsThePlane : Obligations.ShiftRegisterHoldsThePlane := by
  intro s t pn hI hpc hx hlen hturns
  obtain ⟨-, ⟨hpos, -⟩, -⟩ := (legal_iff _).mp hI.legal
  cases (hI.scannable.plane_path hpc hx).seqTurns.symm.trans hturns
  rw [Panel.watch_eq_replay pn rfl, Panel.replay_plane pn _ _ hlen hpos]
  refine ⟨rfl, length_planeRegister _ _, fun x hx => ?_⟩
  rw [getElem?_planeRegister _ hx, hI.planeWord_color hx]
  rfl

end Sys2Proof.Machine

/-! ## Runs under the schedule of V62

The sequencer steps whenever it is enabled and the timer ticks while it waits. What such a run makes of the pins the panel can replay,
so the lit ticks of two runs, one after the other, add up. -/

namespace Sys2Proof.Machine

variable {s t u : State} {a b k pin j y : Nat}

/-! ### Turns -/

/-- A turn is a tick or a phase. -/
theorem State.refreshTurn_cases (h : s.refreshTurn = .next t) : s.tick = .ok t ∨ exec s.seqPc.instr s = .next t := by
  rw [State.refreshTurn] at h
  split at h
  · exact .inl (outcomeOf_eq_next.mp h)
  · exact .inr h

/-- A turn keeps the invariant. -/
theorem Inv.refreshTurn (hI : Inv s) (h : s.refreshTurn = .next t) : Inv t := by
  rcases State.refreshTurn_cases h with htick | hphase
  · exact hI.tick htick
  · exact hI.phase hphase

/-- A turn writes owned pins only (R178), and leaves the configuration. -/
theorem State.refreshTurn_drives (h : s.refreshTurn = .next t) : drivesWithin allMask s t ∧ t.cfg = s.cfg := by
  rcases State.refreshTurn_cases h with htick | hphase
  · rw [State.tick_frame htick]
    exact ⟨State.samePins.drivesWithin ⟨rfl, rfl⟩ _, rfl⟩
  · exact ⟨(exec_phase_drives hphase).mono (phasePins_owned _), (exec_phase_keeps hphase).1⟩

theorem State.refreshTurns_succ (h : s.refreshTurn = .next t) : State.refreshTurns (k + 1) s = State.refreshTurns k t := by
  rw [State.refreshTurns, h]

/-- The first turn of a run. -/
theorem State.exists_first_turn (h : State.refreshTurns (k + 1) s = .next u) :
    ∃ t, s.refreshTurn = .next t ∧ State.refreshTurns k t = .next u := by
  cases hturn : s.refreshTurn with
  | next t =>
    rw [State.refreshTurns_succ hturn] at h
    exact ⟨t, rfl, h⟩
  | fault e =>
    rw [State.refreshTurns, hturn] at h
    cases h
  | refused e =>
    rw [State.refreshTurns, hturn] at h
    cases h

/-! ### Runs -/

theorem State.refreshTurns_add (h : State.refreshTurns a s = .next t) : State.refreshTurns (a + b) s = State.refreshTurns b t := by
  induction a generalizing s with
  | zero =>
    cases h
    rw [Nat.zero_add]
  | succ a ih =>
    obtain ⟨v, hturn, hrest⟩ := State.exists_first_turn h
    rw [Nat.succ_add, State.refreshTurns_succ hturn, ih hrest]

theorem Inv.refreshTurns (hI : Inv s) (h : State.refreshTurns k s = .next t) : Inv t := by
  induction k generalizing s with
  | zero =>
    cases h
    exact hI
  | succ k ih =>
    obtain ⟨v, hturn, hrest⟩ := State.exists_first_turn h
    exact ih (hI.refreshTurn hturn) hrest

theorem drivesWithin.trans {m : Word} (h : drivesWithin m s t) (h' : drivesWithin m t u) : drivesWithin m s u := by
  obtain ⟨es, htrace, hgpio, hmask⟩ := h
  obtain ⟨es', htrace', hgpio', hmask'⟩ := h'
  refine ⟨es ++ es', ?_, ?_, fun e he => (List.mem_append.mp he).elim (hmask e) (hmask' e)⟩
  · rw [htrace', htrace, List.append_assoc]
  · rw [hgpio', hgpio, List.foldl_append]

theorem State.refreshTurns_drives (h : State.refreshTurns k s = .next t) : drivesWithin allMask s t ∧ t.cfg = s.cfg := by
  induction k generalizing s with
  | zero =>
    cases h
    exact ⟨State.samePins.drivesWithin ⟨rfl, rfl⟩ _, rfl⟩
  | succ k ih =>
    obtain ⟨v, hturn, hrest⟩ := State.exists_first_turn h
    obtain ⟨hdrives, hcfg⟩ := State.refreshTurn_drives hturn
    obtain ⟨hdrives', hcfg'⟩ := ih hrest
    exact ⟨hdrives.trans hdrives', hcfg'.trans hcfg⟩

/-- The levels at the end of a run are those that its events make. -/
theorem State.gpio_of_refreshTurns {es : List Event} (h : State.refreshTurns k s = .next t) (htrace : t.trace = s.trace ++ es) :
    t.gpio = es.foldl gpioAfter s.gpio := by
  obtain ⟨⟨es', htrace', hgpio, -⟩, -⟩ := State.refreshTurns_drives h
  rw [hgpio, List.append_cancel_left (htrace.symm.trans htrace')]

/-! ### The panel along a run -/

theorem Panel.watch_self (p : Panel) (s : State) : p.watch s s = p := by
  rw [Panel.watch, List.drop_length]
  rfl

/-- Watching two runs one after the other is watching both (R183). -/
theorem Panel.watch_watch {m n : Word} (p : Panel) (h : drivesWithin m s t) (hcfg : t.cfg = s.cfg) (h' : drivesWithin n t u) :
    (p.watch s t).watch t u = p.watch s u := by
  obtain ⟨es, htrace, hgpio, -⟩ := h
  obtain ⟨es', htrace', -, -⟩ := h'
  have hwhole : u.trace = s.trace ++ (es ++ es') := by rw [htrace', htrace, List.append_assoc]
  rw [Panel.watch_eq_replay _ htrace', Panel.watch_eq_replay _ htrace, Panel.watch_eq_replay _ hwhole, Panel.replay_append, hcfg, hgpio]

theorem State.litTicks_succ (p : Panel) (h : s.refreshTurn = .next t) :
    State.litTicks pin j y (k + 1) s p =
      (if s.seqWaits && t.lit p pin j && t.litPhysicalRow pin == y then 1 else 0) + State.litTicks pin j y k t (p.watch s t) := by
  rw [State.litTicks, h]

/-- The lit ticks of two runs add up. -/
theorem State.litTicks_add (p : Panel) (h : State.refreshTurns a s = .next t) :
    State.litTicks pin j y (a + b) s p = State.litTicks pin j y a s p + State.litTicks pin j y b t (p.watch s t) := by
  induction a generalizing s p with
  | zero =>
    cases h
    rw [Nat.zero_add, Panel.watch_self, State.litTicks, Nat.zero_add]
  | succ a ih =>
    obtain ⟨v, hturn, hrest⟩ := State.exists_first_turn h
    obtain ⟨hdrives, hcfg⟩ := State.refreshTurn_drives hturn
    rw [Nat.succ_add, State.litTicks_succ p hturn, State.litTicks_succ p hturn, ih _ hrest,
      Panel.watch_watch p hdrives hcfg (State.refreshTurns_drives hrest).1, Nat.add_assoc]

/-! ### Runs in which the sequencer does not wait -/

theorem State.refreshTurn_of_not_waits (h : s.seqWaits = false) : s.refreshTurn = s.seqTurn := by simp [State.refreshTurn, h]

theorem State.refreshTurn_of_waits (h : s.seqWaits = true) : s.refreshTurn = s.ptTurn := by simp [State.refreshTurn, h]

theorem SeqPath.refreshTurns (h : SeqPath k s t) : State.refreshTurns k s = .next t := by
  induction h with
  | nil => rfl
  | cons hw hturn _ ih => rw [State.refreshTurns_succ ((State.refreshTurn_of_not_waits hw).trans hturn), ih]

/-- No tick is counted in them. -/
theorem SeqPath.litTicks_eq_zero (h : SeqPath k s t) (p : Panel) : State.litTicks pin j y k s p = 0 := by
  induction h generalizing p with
  | nil => rfl
  | cons hw hturn _ ih =>
    rw [State.litTicks_succ p ((State.refreshTurn_of_not_waits hw).trans hturn), ih, hw]
    simp

/-- The sequencer waits in the two wait phases while the FIFO holds an entry (R164). -/
theorem State.seqWaits_iff : s.seqWaits = true ↔ (s.seqPc = .planeWait ∨ s.seqPc = .rowWait) ∧ s.ptFifo ≠ [] := by
  simp [State.seqWaits, State.staEmpt]

/-- A wait phase that goes on, with the FIFO empty. -/
theorem SeqPath.of_empty {p : Phase} (hfifo : s.ptFifo = []) (hpc : s.seqPc = p) (h : exec p.instr s = .next t) : SeqPath 1 s t := by
  refine .cons (Bool.eq_false_iff.mpr fun hw => (State.seqWaits_iff.mp hw).2 hfifo) ?_ (.nil t)
  rw [State.seqTurn, hpc]
  exact h

end Sys2Proof.Machine

/-! ## A wait, with the ticks it lights

A pulse is waited for in the next `PLANE_WAIT` or `ROW_WAIT`, so the ticks of a window are lit with the words latched before it. -/

namespace Sys2Proof.Machine

variable {s t u : State} {k m T pin j y : Nat}

/-- The last tick of a run. -/
theorem State.ticks_last (h : State.ticks k s = .ok t) : State.ticks (k + 1) s = t.tick := by
  induction k generalizing s with
  | zero =>
    cases h
    cases ht : t.tick with
    | error e => rw [State.ticks, ht]
    | ok v => rw [State.ticks_succ _ ht, State.ticks_zero]
  | succ k ih =>
    cases hs : s.tick with
    | error e => rw [State.ticks, hs] at h; cases h
    | ok v =>
      rw [State.ticks_succ _ hs] at h ⊢
      exact ih h

/-- The timer differs, and nothing else (R200). -/
def State.timerRan (s t : State) : Prop := t = { s with ptFifo := t.ptFifo, ptHold := t.ptHold, ptCur := t.ptCur, oe := t.oe }

theorem State.ticks_timerRan (h : State.ticks k s = .ok t) : s.timerRan t := by
  induction k generalizing s with
  | zero =>
    cases h
    rfl
  | succ k ih =>
    cases hs : s.tick with
    | error e => rw [State.ticks, hs] at h; cases h
    | ok v =>
      rw [State.ticks_succ _ hs] at h
      have hrest := ih h
      rw [State.timerRan, State.tick_frame hs] at hrest
      exact hrest

/-- The FIFO of a pulse holds an entry until its last lit tick has been played (R202 b). -/
theorem State.Armed.busy (h : s.Armed m) (hk : k ≤ m * s.ptRng.toNat) (hu : State.ticks k s = .ok u) : u.ptFifo ≠ [] := by
  rcases Nat.eq_zero_or_pos k with rfl | hpos
  · cases hu
    rw [h.fifo]
    simp
  · obtain ⟨v, hv, -, hempty⟩ := h.ticks hpos
    cases hu.symm.trans hv
    exact fun hnil => Nat.not_lt.mpr hk (hempty.mp hnil)

/-- The sub-pixel is latched lit, and in the row that is selected (R183). -/
def State.shows (s : State) (p : Panel) (pin j y : Nat) : Bool := (p.latch.getD j 0#32).getLsbD pin && s.litPhysicalRow pin == y

/-- The ticks that a window of `T` ticks lights the sub-pixel. -/
def State.exposure (s : State) (p : Panel) (pin j y T : Nat) : Nat := if s.shows p pin j y then T else 0

theorem State.exposure_zero (s : State) (p : Panel) : s.exposure p pin j y 0 = 0 := ite_self 0

theorem State.shows_timerRan (h : s.timerRan t) (p : Panel) : t.shows p pin j y = s.shows p pin j y := by
  rw [State.timerRan] at h
  rw [h]
  rfl

theorem Panel.watch_timerRan (h : s.timerRan t) (p : Panel) : p.watch s t = p := by
  have htrace : t.trace = s.trace ++ [] := by rw [h, List.append_nil]
  exact Panel.watch_eq_replay p htrace

/-- A tick of a wait counts when the output is active after it (R183). -/
theorem State.litTicks_tick (hw : s.seqWaits = true) (htick : s.tick = .ok t) (p : Panel) :
    State.litTicks pin j y 1 s p = if t.oe && s.shows p pin j y then 1 else 0 := by
  have hturn : s.refreshTurn = .next t := (State.refreshTurn_of_waits hw).trans (outcomeOf_eq_next.mpr htick)
  have hran : s.timerRan t := State.tick_frame htick
  rw [State.litTicks_succ p hturn, ← State.shows_timerRan hran, hw, Bool.true_and, State.lit, Bool.and_assoc, ← State.shows]
  rfl

/-- The wait for a pulse: its lit ticks and one more (R202, R203). -/
theorem State.Armed.wait (h : s.Armed m) (hpc : s.seqPc = .planeWait ∨ s.seqPc = .rowWait) (hk : k ≤ m * s.ptRng.toNat + 1) :
    ∃ u, State.ticks k s = .ok u ∧ State.refreshTurns k s = .next u ∧
      ∀ (p : Panel) (pin j y : Nat), State.litTicks pin j y k s p = s.exposure p pin j y (min k (m * s.ptRng.toNat)) := by
  induction k with
  | zero => exact ⟨s, rfl, rfl, fun p pin j y => by rw [Nat.zero_min, State.exposure_zero, State.litTicks]⟩
  | succ k ih =>
    obtain ⟨u, hticks, hturns, hlit⟩ := ih (by omega)
    obtain ⟨v, hticks', hoe, -⟩ := h.ticks (Nat.succ_pos k)
    have htick : u.tick = .ok v := (State.ticks_last hticks).symm.trans hticks'
    have hran := State.ticks_timerRan hticks
    have hphase : u.seqPc = s.seqPc := by rw [hran]
    have hw : u.seqWaits = true := State.seqWaits_iff.mpr ⟨hphase ▸ hpc, h.busy (by omega) hticks⟩
    refine ⟨v, hticks', ?_, fun p pin j y => ?_⟩
    · have hturn : u.refreshTurn = .next v := (State.refreshTurn_of_waits hw).trans (outcomeOf_eq_next.mpr htick)
      rw [State.refreshTurns_add hturns, State.refreshTurns_succ hturn, State.refreshTurns]
    · rw [State.litTicks_add p hturns, hlit, Panel.watch_timerRan hran, State.litTicks_tick hw htick, State.shows_timerRan hran,
        State.exposure, State.exposure]
      cases s.shows p pin j y with
      | false => simp
      | true =>
        simp only [Bool.and_true, hoe, if_true]
        split <;> omega

/-- A window of `T` lit ticks is to be waited for: none before the first pulse of a half-row (R162). -/
def State.Window (s : State) (T : Nat) : Prop := (s.quiescent ∧ T = 0) ∨ ∃ m, s.Armed m ∧ m * s.ptRng.toNat = T

theorem State.Window.of_quiescent (h : s.quiescent) : s.Window 0 := .inl ⟨h, rfl⟩

/-- The wait for a window ends with the FIFO empty; only the timer has changed, and the window's ticks are lit. -/
theorem State.Window.wait (h : s.Window T) (hpc : s.seqPc = .planeWait ∨ s.seqPc = .rowWait) :
    ∃ k u, k ≤ T + 1 ∧ State.refreshTurns k s = .next u ∧ s.timerRan u ∧ u.ptFifo = [] ∧
      ∀ (p : Panel) (pin j y : Nat), State.litTicks pin j y k s p = s.exposure p pin j y T := by
  rcases h with ⟨⟨-, hfifo, -⟩, rfl⟩ | ⟨m, harmed, rfl⟩
  · exact ⟨0, s, Nat.zero_le _, rfl, rfl, hfifo, fun p pin j y => by rw [State.exposure_zero, State.litTicks]⟩
  · obtain ⟨u, hticks, hturns, hlit⟩ := harmed.wait hpc le_rfl
    obtain ⟨v, hticks', -, hempty⟩ := harmed.ticks (Nat.succ_pos (m * s.ptRng.toNat))
    cases hticks.symm.trans hticks'
    refine ⟨_, u, le_rfl, hturns, State.ticks_timerRan hticks, hempty.mpr (Nat.lt_succ_self _), fun p pin j y => ?_⟩
    rw [hlit, Nat.min_eq_right (Nat.le_succ _)]

end Sys2Proof.Machine

/-! ## Stretches of the scan-out

A stretch is a run under the schedule of V62 that writes nothing but the registers of the scan-out, with the events it makes. -/

namespace Sys2Proof.Machine

variable {s t u : State} {a b k T p : Nat} {es es' : List Event}

/-- The state with the registers that the scan-out writes forgotten: two states agree on all others when these are equal. -/
def State.scanless (s : State) : State :=
  { s with seqPc := .top, seqD := 0#3, seqP := 0#4, seqX := 0#16, ptRng := 0#32, ptFifo := [], ptHold := none, ptCur := none,
           ptEn := false, oe := false, ptStart := 0#32, ptHint := 0#32, gpio := 0#32, trace := [], freeCount := 0 }

/-- `k` turns lead from `s` to `t`, making the events `es`. -/
structure Stretch (k : Nat) (s t : State) (es : List Event) : Prop where
  turns : State.refreshTurns k s = .next t
  frame : t.scanless = s.scanless
  trace : t.trace = s.trace ++ es

theorem Stretch.trans (h : Stretch a s t es) (h' : Stretch b t u es') : Stretch (a + b) s u (es ++ es') where
  turns := (State.refreshTurns_add h.turns).trans h'.turns
  frame := h'.frame.trans h.frame
  trace := by rw [h'.trace, h.trace, List.append_assoc]

theorem SeqPath.stretch (h : SeqPath k s t) (hframe : t.scanless = s.scanless) (htrace : t.trace = s.trace ++ es) :
    Stretch k s t es := ⟨h.refreshTurns, hframe, htrace⟩

theorem State.timerRan.stretch (h : s.timerRan t) (hturns : State.refreshTurns k s = .next t) : Stretch k s t [] := by
  rw [State.timerRan] at h
  exact ⟨hturns, by rw [h]; rfl, by rw [h, List.append_nil]⟩

namespace Stretch

theorem cfg (h : Stretch k s t es) : t.cfg = s.cfg := (congrArg State.cfg h.frame :)

theorem mem (h : Stretch k s t es) : t.mem = s.mem := (congrArg State.mem h.frame :)

theorem active (h : Stretch k s t es) : t.active = s.active := (congrArg State.active h.frame :)

theorem settings (h : Stretch k s t es) (f : FrameId) : t.settings f = s.settings f :=
  State.settings_congr s t (congrArg State.frames h.frame :) f

theorem inv (h : Stretch k s t es) (hI : Inv s) : Inv t := hI.refreshTurns h.turns

theorem gpio (h : Stretch k s t es) : t.gpio = es.foldl gpioAfter s.gpio := State.gpio_of_refreshTurns h.turns h.trace

theorem watch (h : Stretch k s t es) (pn : Panel) : pn.watch s t = pn.replay s.cfg s.gpio es := Panel.watch_eq_replay pn h.trace

theorem watch_watch (h : Stretch a s t es) (h' : Stretch b t u es') (pn : Panel) : (pn.watch s t).watch t u = pn.watch s u :=
  Panel.watch_watch pn (State.refreshTurns_drives h.turns).1 h.cfg (State.refreshTurns_drives h'.turns).1

theorem litTicks_add {pin j y : Nat} (h : Stretch a s t es) (pn : Panel) :
    State.litTicks pin j y (a + b) s pn = State.litTicks pin j y a s pn + State.litTicks pin j y b t (pn.watch s t) :=
  State.litTicks_add pn h.turns

/-- Pins that no event of the stretch touches keep their levels. -/
theorem keeps {m n : Word} (h : Stretch k s t es) (hm : ∀ e ∈ es, e.mask &&& ~~~m = 0#32) (hn : n &&& m = 0#32) :
    t.gpio &&& n = s.gpio &&& n :=
  drivesWithin.keeps ⟨es, h.trace, h.gpio, hm⟩ hn

end Stretch

/-! ### The strobe, the pulse and the next plane -/

/-- The state in which the wait for the previous pulse, and the strobe, leave the block (R172 to R174). -/
def State.strobed (s : State) : State :=
  { s with
    ptFifo := [], ptHold := none, ptCur := none, ptEn := false, oe := false
    gpio := (s.gpio ||| strobeMask) &&& ~~~strobeMask
    trace := s.trace ++ [.ptWrite (.ctl .ctlQuiet), .gpioSet strobeMask, .gpioClr strobeMask]
    seqPc := .pulse }

theorem State.strobed_path (hpc : s.seqPc = .planeWait) (hfifo : s.ptFifo = []) : SeqPath 3 s s.strobed := by
  have hwait : SeqPath 1 s ((s.ptControl .ctlQuiet).goto .strobeSet) := .of_empty hfifo hpc (exec_planeWait_done hfifo)
  have hset := SeqPath.single (s := (s.ptControl .ctlQuiet).goto .strobeSet) (p := .strobeSet) rfl (by simp) (exec_strobeSet _)
  have hclr := SeqPath.single (s := (((s.ptControl .ctlQuiet).goto .strobeSet).gpioSet strobeMask).goto .strobeClr)
    (p := .strobeClr) rfl (by simp) (exec_strobeClr _)
  have hend : (((((s.ptControl .ctlQuiet).goto .strobeSet).gpioSet strobeMask).goto .strobeClr).gpioClr strobeMask).goto .pulse =
      s.strobed := by
    simp [State.strobed, State.goto, State.gpioSet, State.gpioClr, State.ptControl, State.logPt]
  exact hend ▸ (hwait.trans hset).trans hclr

/-- The sequencer after plane `p`: at the start of the next plane, or at the end of the half-row (R175). -/
structure State.PlaneDone (s : State) (p : Nat) : Prop where
  window : s.Window (s.cfg.baseTicks * 2 ^ p)
  last : p = s.cfg.n - 1 → s.seqPc = .rowWait
  next : p ≠ s.cfg.n - 1 → s.seqPc = .colClr ∧ s.seqX = 0#16 ∧ s.seqP.toNat = p + 1

theorem State.planeDone_afterPulse (hl : s.cfg.legal = true) (hp : s.seqP.toNat < s.cfg.n) (hq : s.quiescent) :
    s.pulseSent.afterPulse.PlaneDone s.seqP.toNat := by
  obtain ⟨harmed, hdur⟩ := State.armed_afterPulse hl hp hq
  have hcfg : s.pulseSent.afterPulse.cfg = s.cfg := by rw [State.afterPulse_frame]; rfl
  refine ⟨?_, fun hlast => ?_, fun hnext => ?_⟩
  · rw [hcfg]
    exact .inr ⟨_, harmed, hdur⟩
  · rw [hcfg] at hlast
    rw [State.afterPulse_last (s := s.pulseSent) hlast]
    rfl
  · rw [hcfg] at hnext
    rw [State.afterPulse_step (s := s.pulseSent) hnext]
    exact ⟨rfl, rfl, seqP_succ_toNat hl hp⟩

/-- From a wait that is over to the end of the plane (R162 steps 2c and 2d). -/
theorem State.Scannable.strobe_pulse (h : s.Scannable) (hpc : s.seqPc = .planeWait) (hfifo : s.ptFifo = []) :
    ∃ t, SeqPath 4 s t ∧ t.scanless = s.scanless ∧ t.seqD = s.seqD ∧
      t.trace = s.trace ++ ([.ptWrite (.ctl .ctlQuiet), .gpioSet strobeMask, .gpioClr strobeMask] ++
        (pulseWrites s.cfg s.seqP.toNat).map .ptWrite) ∧ t.PlaneDone s.seqP.toNat := by
  have hpulse := SeqPath.single (s := s.strobed) (p := .pulse) rfl (by simp) (exec_pulse h.legal rfl)
  refine ⟨_, (State.strobed_path hpc hfifo).trans hpulse, ?_, ?_, ?_,
    State.planeDone_afterPulse (s := s.strobed) h.legal h.plane ⟨rfl, rfl, rfl, rfl, rfl⟩⟩
  · rw [State.afterPulse_frame]
    rfl
  · rw [State.afterPulse_frame]
    rfl
  · rw [State.afterPulse_frame]
    exact List.append_assoc ..

/-! ### One plane -/

/-- The stored words of a plane of a half-row of the active frame. -/
def State.cellWord (s : State) (d p x : Nat) : Word := s.mem.read (cellAddr s.cfg s.active.toNat d p x)

theorem Stretch.cellWord (h : Stretch k s t es) : t.cellWord = s.cellWord := by
  funext d p x
  rw [State.cellWord, h.mem, h.cfg, h.active, State.cellWord]

/-- The events of a plane, with those of the columns apart (R162). -/
theorem planeEvents_eq (c : Config) (w : Nat → Word) (p : Nat) :
    planeEvents c w p = (columnEvents w c.columns ++ [.gpioClr colorClkMask]) ++
      ([.ptWrite (.ctl .ctlQuiet), .gpioSet strobeMask, .gpioClr strobeMask] ++ (pulseWrites c p).map .ptWrite) := by
  simp [planeEvents]

theorem State.Window.scanned {x : BitVec 16} {q : Phase} (h : s.Window T) : (s.scanned es x q).Window T := by
  rcases h with hquiet | ⟨m, ⟨hen, hrng, hcur, hhold, hcount, hfifo⟩, hm⟩
  · exact .inl hquiet
  · exact .inr ⟨m, ⟨hen, hrng, hcur, hhold, hcount, hfifo⟩, hm⟩

/-- The masks of the columns of a plane lie within the clock and colour pins (R14). -/
theorem columns_within (w : Nat → Word) (n : Nat) :
    ∀ e ∈ columnEvents w n ++ [.gpioClr colorClkMask], e.mask &&& ~~~colorClkMask = 0#32 := by
  intro e he
  have hcolor : colorMask &&& ~~~colorClkMask = 0#32 := by decide
  have hclk : clkMask &&& ~~~colorClkMask = 0#32 := by decide
  simp only [columnEvents, List.mem_append, List.mem_flatMap, List.mem_cons, List.not_mem_nil, or_false] at he
  rcases he with ⟨x, -, rfl | rfl | rfl⟩ | rfl
  · exact BitVec.and_not_self _
  · rw [Event.mask, BitVec.and_assoc, hcolor, BitVec.and_zero]
  · exact hclk
  · exact BitVec.and_not_self _

/-- Neither the row-address lines nor the strobe are touched by the columns. -/
theorem rowMask_and_colorClkMask : rowMask &&& colorClkMask = 0#32 := by decide

theorem Stretch.litPhysicalRow (h : Stretch k s t es) (hrow : t.gpio &&& rowMask = s.gpio &&& rowMask) (pin : Nat) :
    t.litPhysicalRow pin = s.litPhysicalRow pin := by
  rw [State.litPhysicalRow, h.cfg, litRow_eq hrow, State.litPhysicalRow]

/-- The columns of a plane, and the wait for the pulse before it, whose ticks are lit with the words latched before. -/
theorem Inv.columns_wait (hI : Inv s) (hpc : s.seqPc = .colClr) (hx : s.seqX = 0#16) (hwin : s.Window T) :
    ∃ k t, k ≤ 3 * s.cfg.columns + 1 + (T + 1) ∧
      Stretch k s t (columnEvents s.planeWord s.cfg.columns ++ [.gpioClr colorClkMask]) ∧ t.seqPc = .planeWait ∧ t.ptFifo = [] ∧
      t.seqD = s.seqD ∧ t.seqP = s.seqP ∧
      ∀ (pn : Panel) (pin j y : Nat), pn.sr.length = s.cfg.columns → State.litTicks pin j y k s pn = s.exposure pn pin j y T := by
  obtain ⟨-, ⟨hpos, -⟩, -⟩ := (legal_iff _).mp hI.legal
  have hpath := hI.scannable.plane_path hpc hx
  have hcolumns := hpath.stretch (es := columnEvents s.planeWord s.cfg.columns ++ [.gpioClr colorClkMask]) rfl rfl
  obtain ⟨kw, t, hkw, hturns, hran, hfifo, hlit⟩ := (hwin.scanned (es := columnEvents s.planeWord s.cfg.columns ++
    [.gpioClr colorClkMask]) (x := BitVec.ofNat 16 (s.cfg.columns - 1)) (q := .planeWait)).wait (.inl rfl)
  have hwhole := hcolumns.trans (hran.stretch hturns)
  rw [List.append_nil] at hwhole
  have hkept : t.seqPc = .planeWait ∧ t.seqD = s.seqD ∧ t.seqP = s.seqP := by
    rw [hran]
    exact ⟨rfl, rfl, rfl⟩
  obtain ⟨htpc, htd, htp⟩ := hkept
  refine ⟨_, t, Nat.add_le_add_left hkw _, hwhole, htpc, hfifo, htd, htp, fun pn pin j y hlen => ?_⟩
  have hrow := hcolumns.litPhysicalRow (hcolumns.keeps (columns_within _ _) rowMask_and_colorClkMask) pin
  have hlatch : (pn.watch s (s.scanned (columnEvents s.planeWord s.cfg.columns ++ [.gpioClr colorClkMask])
      (BitVec.ofNat 16 (s.cfg.columns - 1)) .planeWait)).latch = pn.latch := by
    rw [hcolumns.watch, Panel.replay_plane pn _ _ hlen hpos]
  rw [hcolumns.litTicks_add, hpath.litTicks_eq_zero, hlit, State.exposure, State.shows, hlatch, hrow, Nat.zero_add]
  rfl

/-- One plane of one half-row (R162 step 2): its columns, the wait for the pulse before it, the strobe and its own pulse. -/
theorem Inv.plane_stretch (hI : Inv s) (hpc : s.seqPc = .colClr) (hx : s.seqX = 0#16) (hwin : s.Window T) :
    ∃ k t, k < (planeEvents s.cfg (s.cellWord s.seqD.toNat s.seqP.toNat) s.seqP.toNat).length + T ∧
      Stretch k s t (planeEvents s.cfg (s.cellWord s.seqD.toNat s.seqP.toNat) s.seqP.toNat) ∧ t.seqD = s.seqD ∧
      t.PlaneDone s.seqP.toNat ∧
      ∀ (pn : Panel) (pin j y : Nat), pn.sr.length = s.cfg.columns → State.litTicks pin j y k s pn = s.exposure pn pin j y T := by
  obtain ⟨k, b, hk, hwait, hbpc, hfifo, hbd, hbp, hlit⟩ := hI.columns_wait hpc hx hwin
  obtain ⟨t, hpath, hframe, htd, htrace, hdone⟩ := (hwait.inv hI).scannable.strobe_pulse hbpc hfifo
  rw [hwait.cfg, hbp] at htrace
  rw [hbp] at hdone
  refine ⟨k + 4, t, ?_, ?_, htd.trans hbd, hdone, fun pn pin j y hlen => ?_⟩
  · rw [length_planeEvents]
    omega
  · rw [planeEvents_eq]
    exact hwait.trans (hpath.stretch hframe htrace)
  · rw [hwait.litTicks_add, hlit pn pin j y hlen, hpath.litTicks_eq_zero, Nat.add_zero]

end Sys2Proof.Machine

/-! ## The light of a stretch

The ticks that a stretch lights a sub-pixel, with those of the window it leaves open in place of those of the window it found open. -/

namespace Sys2Proof.Machine

variable {s t u : State} {a b k T T' T'' p : Nat} {es es' : List Event}

/-! ### The panel after a plane -/

/-- A pin that no event touches keeps its level. -/
theorem getLsbD_foldl_gpioAfter {i : Nat} (g : Word) (h : ∀ e ∈ es, e.mask.getLsbD i = false) :
    (es.foldl gpioAfter g).getLsbD i = g.getLsbD i := by
  induction es generalizing g with
  | nil => rfl
  | cons e es ih =>
    obtain ⟨he, hes⟩ := List.forall_mem_cons.mp h
    rw [List.foldl_cons, ih _ hes]
    cases e with
    | gpioSet m =>
      rw [Event.mask] at he
      rw [gpioAfter, BitVec.getLsbD_or, he, Bool.or_false]
    | gpioClr m =>
      rw [Event.mask] at he
      rw [gpioAfter, BitVec.getLsbD_and, BitVec.getLsbD_not, he, Bool.not_false, Bool.and_true]
      by_cases hi : i < 32
      · rw [decide_eq_true hi, Bool.and_true]
      · rw [BitVec.getLsbD_of_ge g _ (Nat.le_of_not_lt hi), Bool.false_and]
    | ptWrite w => rfl

/-- A mask has no bit that a mask it lies within has not. -/
theorem getLsbD_of_within {m n : Word} {i : Nat} (h : m &&& ~~~n = 0#32) (hn : n.getLsbD i = false) : m.getLsbD i = false := by
  by_cases hi : i < 32
  · have hbit := within_iff.mp h i hi
    rw [← BitVec.getLsbD_eq_getElem, ← BitVec.getLsbD_eq_getElem, hn] at hbit
    exact Bool.eq_false_iff.mpr fun hm => Bool.false_ne_true (hbit hm)
  · exact BitVec.getLsbD_of_ge _ _ (Nat.le_of_not_lt hi)

/-- Writes to the timer leave the pins. -/
theorem foldl_ptWrites (g : Word) (ws : List PtWrite) : (ws.map Event.ptWrite).foldl gpioAfter g = g := by
  rw [List.foldl_map]
  exact List.foldl_fixed ws

/-- A plane ends with its words latched, if the strobe was low before (R162 step 2c, R183). -/
theorem Panel.replay_planeEvents {c : Config} {g : Word} (pn : Panel) (w : Nat → Word) (hlen : pn.sr.length = c.columns)
    (hpos : 1 ≤ c.columns) (hlow : g.getLsbD 4 = false) :
    pn.replay c g (planeEvents c w p) = ⟨planeRegister c w, planeRegister c w⟩ := by
  have hcols : ((columnEvents w c.columns ++ [Event.gpioClr colorClkMask]).foldl gpioAfter g).getLsbD 4 = false := by
    rw [getLsbD_foldl_gpioAfter g fun e he => getLsbD_of_within (n := colorClkMask) (columns_within w _ e he) (by decide), hlow]
  have hedge : strobeMask.getLsbD 4 = true ∧ strobeMask.getLsbD 17 = false := by decide
  rw [planeEvents_eq, Panel.replay_append, Panel.replay_append, Panel.replay_plane pn g w hlen hpos, Panel.replay_ptWrites]
  simp only [Panel.replay, Panel.onEvent, gpioAfter, hedge, hcols, Bool.false_and, Bool.not_false, Bool.and_self, if_true,
    Bool.false_eq_true, if_false]

/-- A plane leaves the strobe low (R174). -/
theorem strobe_low_of_planeEvents (c : Config) (w : Nat → Word) (p : Nat) (g : Word) :
    ((planeEvents c w p).foldl gpioAfter g).getLsbD 4 = false := by
  have hmask : strobeMask.getLsbD 4 = true := by decide
  rw [planeEvents_eq, List.foldl_append, List.foldl_append, foldl_ptWrites]
  simp only [List.foldl_cons, List.foldl_nil, gpioAfter, BitVec.getLsbD_and, BitVec.getLsbD_not, hmask, Bool.not_true, Bool.and_false]

/-- A plane does not touch the row address (R14). -/
theorem planeEvents_within (c : Config) (w : Nat → Word) (p : Nat) :
    ∀ e ∈ planeEvents c w p, e.mask &&& ~~~(colorClkMask ||| strobeMask) = 0#32 := by
  intro e he
  have hclk : colorClkMask &&& ~~~(colorClkMask ||| strobeMask) = 0#32 := by decide
  have hstrobe : strobeMask &&& ~~~(colorClkMask ||| strobeMask) = 0#32 := by decide
  rw [planeEvents_eq] at he
  rcases List.mem_append.mp he with he | he
  · exact within_trans (columns_within w _ e he) hclk
  · simp only [List.mem_append, List.mem_cons, List.not_mem_nil, or_false, List.mem_map] at he
    rcases he with (rfl | rfl | rfl) | ⟨x, -, rfl⟩
    · exact BitVec.zero_and
    · exact hstrobe
    · exact hstrobe
    · exact BitVec.zero_and

/-! ### Light -/

/-- The panel has a register of the block's columns, and the strobe is low: the next rising edge latches what was shifted in. -/
structure State.Watched (s : State) (pn : Panel) : Prop where
  register : pn.sr.length = s.cfg.columns
  strobe : s.gpio.getLsbD 4 = false

/-- `k` turns from `s`, with a window of `T` ticks open, to `t`, with one of `T'`, light each sub-pixel for `light` ticks. -/
def Lights (k : Nat) (s t : State) (T T' : Nat) (light : Nat → Nat → Nat → Nat) : Prop :=
  ∀ pn : Panel, s.Watched pn → t.Watched (pn.watch s t) ∧ ∀ pin j y,
    State.litTicks pin j y k s pn + t.exposure (pn.watch s t) pin j y T' = s.exposure pn pin j y T + light pin j y

theorem Lights.trans {f g : Nat → Nat → Nat → Nat} (hst : Stretch a s t es) (htu : Stretch b t u es') (h : Lights a s t T T' f)
    (h' : Lights b t u T' T'' g) : Lights (a + b) s u T T'' fun pin j y => f pin j y + g pin j y := by
  intro pn hpn
  obtain ⟨hwatched, hlight⟩ := h pn hpn
  obtain ⟨hwatched', hlight'⟩ := h' _ hwatched
  rw [hst.watch_watch htu] at hwatched' hlight'
  refine ⟨hwatched', fun pin j y => ?_⟩
  rw [hst.litTicks_add, Nat.add_assoc, hlight', ← Nat.add_assoc, hlight, Nat.add_assoc]

/-- The physical row that a colour line lights while half-row `d` is selected (R183). -/
def physicalRow (c : Config) (pin d : Nat) : Nat := if pin ∈ [c.pinR1, c.pinG1, c.pinB1] then d else d + c.half

theorem State.litPhysicalRow_eq (s : State) (pin : Nat) : s.litPhysicalRow pin = physicalRow s.cfg pin s.litRow := rfl

/-- The ticks for which a plane of a half-row lights a sub-pixel (R184). -/
def State.planeLight (s : State) (d p pin j y : Nat) : Nat :=
  if ((planeRegister s.cfg (s.cellWord d p)).getD j 0#32).getLsbD pin && physicalRow s.cfg pin d == y then s.cfg.baseTicks * 2 ^ p
  else 0

theorem Stretch.planeLight (h : Stretch k s t es) : t.planeLight = s.planeLight := by
  funext d p pin j y
  rw [State.planeLight, h.cfg, h.cellWord, State.planeLight]

/-- A plane lights what it latches (R183, R184). -/
theorem Stretch.lights_plane {d : Nat} (h : Stretch k s t (planeEvents s.cfg (s.cellWord d p) p)) (hl : s.cfg.legal = true)
    (hrow : s.litRow = d)
    (hlit : ∀ (pn : Panel) (pin j y : Nat), pn.sr.length = s.cfg.columns →
      State.litTicks pin j y k s pn = s.exposure pn pin j y T) :
    t.litRow = d ∧ Lights k s t T (s.cfg.baseTicks * 2 ^ p) (s.planeLight d p) := by
  obtain ⟨-, ⟨hpos, -⟩, -⟩ := (legal_iff _).mp hl
  have hrow' : t.litRow = d := (litRow_eq (h.keeps (planeEvents_within _ _ _) (by decide))).trans hrow
  refine ⟨hrow', fun pn hpn => ?_⟩
  have hwatch : pn.watch s t = ⟨planeRegister s.cfg (s.cellWord d p), planeRegister s.cfg (s.cellWord d p)⟩ := by
    rw [h.watch, Panel.replay_planeEvents pn _ hpn.register hpos hpn.strobe]
  refine ⟨⟨?_, ?_⟩, fun pin j y => ?_⟩
  · rw [hwatch, h.cfg]
    exact length_planeRegister _ _
  · rw [h.gpio]
    exact strobe_low_of_planeEvents _ _ _ _
  · have hopen : t.exposure (pn.watch s t) pin j y (s.cfg.baseTicks * 2 ^ p) = s.planeLight d p pin j y := by
      rw [hwatch, State.exposure, State.shows, State.litPhysicalRow_eq, h.cfg, hrow', State.planeLight]
    rw [hlit pn pin j y hpn.register, hopen]

/-- Events that touch neither clock nor strobe do nothing to the panel (R183). -/
theorem Panel.replay_quiet {c : Config} (pn : Panel) (g : Word)
    (h : ∀ e ∈ es, e.mask.getLsbD 17 = false ∧ e.mask.getLsbD 4 = false) : pn.replay c g es = pn := by
  induction es generalizing g with
  | nil => rfl
  | cons e es ih =>
    obtain ⟨⟨hclk, hstrobe⟩, hes⟩ := List.forall_mem_cons.mp h
    have hone : pn.onEvent c g e = pn := by
      cases e with
      | gpioSet m => exact Panel.onEvent_gpioSet_quiet pn g hclk hstrobe
      | gpioClr m => rfl
      | ptWrite w => rfl
    rw [Panel.replay, hone, ih _ hes]

/-- With no window open, a path that moves neither clock nor strobe lights nothing. -/
theorem SeqPath.lights (h : SeqPath k s t) (hst : Stretch k s t es)
    (hquiet : ∀ e ∈ es, e.mask.getLsbD 17 = false ∧ e.mask.getLsbD 4 = false) : Lights k s t 0 0 fun _ _ _ => 0 := by
  intro pn hpn
  have hwatch : pn.watch s t = pn := by rw [hst.watch, Panel.replay_quiet pn _ hquiet]
  refine ⟨⟨?_, ?_⟩, fun pin j y => ?_⟩
  · rw [hwatch, hst.cfg, hpn.register]
  · rw [hst.gpio, getLsbD_foldl_gpioAfter _ fun e he => (hquiet e he).2, hpn.strobe]
  · rw [h.litTicks_eq_zero, State.exposure_zero, State.exposure_zero]

/-- A wait closes the window (R202). -/
theorem State.timerRan.lights (h : s.timerRan t) (hlit : ∀ (pn : Panel) (pin j y : Nat),
    State.litTicks pin j y k s pn = s.exposure pn pin j y T) : Lights k s t T 0 fun _ _ _ => 0 := by
  intro pn hpn
  have hpins : t.cfg = s.cfg ∧ t.gpio = s.gpio := by
    rw [h]
    exact ⟨rfl, rfl⟩
  rw [Panel.watch_timerRan h]
  refine ⟨⟨hpins.1 ▸ hpn.register, hpins.2 ▸ hpn.strobe⟩, fun pin j y => ?_⟩
  rw [hlit, State.exposure_zero]

end Sys2Proof.Machine

/-! ## One half-row, then all of them

Each stretch is counted in turns, against the events it makes and the windows it waits for, and in the light it gives. -/

namespace Sys2Proof.Machine

variable {s t u : State} {a b k T T' p d : Nat} {es es' : List Event} {ps : List Nat}

/-! ### The planes of a half-row -/

/-- The events of the planes `ps` of a half-row (R162 step 2). -/
def State.planesEvents (s : State) (d : Nat) (ps : List Nat) : List Event :=
  ps.flatMap fun p => planeEvents s.cfg (s.cellWord d p) p

/-- The ticks for which they light a sub-pixel (R184). -/
def State.planesLight (s : State) (d : Nat) (ps : List Nat) (pin j y : Nat) : Nat := (ps.map fun p => s.planeLight d p pin j y).sum

/-- The ticks for which they light the panel (R203). -/
def litTime (c : Config) (ps : List Nat) : Nat := (ps.map fun p => c.baseTicks * 2 ^ p).sum

theorem State.planesEvents_cons (s : State) (d p : Nat) (ps : List Nat) :
    s.planesEvents d (p :: ps) = planeEvents s.cfg (s.cellWord d p) p ++ s.planesEvents d ps := rfl

theorem State.planesEvents_singleton (s : State) (d p : Nat) : s.planesEvents d [p] = planeEvents s.cfg (s.cellWord d p) p :=
  List.append_nil _

theorem State.planesLight_cons (s : State) (d p : Nat) (ps : List Nat) :
    s.planesLight d (p :: ps) = fun pin j y => s.planeLight d p pin j y + s.planesLight d ps pin j y := rfl

theorem State.planesLight_singleton (s : State) (d p : Nat) : s.planesLight d [p] = s.planeLight d p := rfl

theorem litTime_cons (c : Config) (p : Nat) (ps : List Nat) : litTime c (p :: ps) = c.baseTicks * 2 ^ p + litTime c ps := rfl

theorem litTime_singleton (c : Config) (p : Nat) : litTime c [p] = c.baseTicks * 2 ^ p := rfl

theorem Stretch.planesEvents (h : Stretch k s t es) : t.planesEvents = s.planesEvents := by
  funext d ps
  rw [State.planesEvents, h.cfg, h.cellWord, State.planesEvents]

theorem Stretch.planesLight (h : Stretch k s t es) : t.planesLight = s.planesLight := by
  funext d ps pin j y
  rw [State.planesLight, h.planeLight, State.planesLight]

/-- From the start of a plane to the wait that ends the half-row (R162 step 2). -/
theorem Inv.planes_stretch (r : Nat) (hI : Inv s) (hpc : s.seqPc = .colClr) (hx : s.seqX = 0#16) (hwin : s.Window T)
    (hrow : s.litRow = s.seqD.toNat) (hr : s.seqP.toNat + (r + 1) = s.cfg.n) (hps : ps = List.range' s.seqP.toNat (r + 1)) :
    ∃ k t T', k + T' < (s.planesEvents s.seqD.toNat ps).length + T + litTime s.cfg ps ∧
      Stretch k s t (s.planesEvents s.seqD.toNat ps) ∧ t.seqD = s.seqD ∧ t.seqPc = .rowWait ∧ t.Window T' ∧
      Lights k s t T T' (s.planesLight s.seqD.toNat ps) := by
  induction r generalizing s T ps with
  | zero =>
    obtain ⟨k, t, hk, hst, hd, hdone, hlit⟩ := hI.plane_stretch hpc hx hwin
    obtain ⟨-, hlight⟩ := hst.lights_plane hI.legal hrow hlit
    have hlast := hdone.last (by rw [hst.cfg]; omega)
    have hopen := hdone.window
    rw [hst.cfg] at hopen
    rw [hps, List.range'_one, State.planesEvents_singleton, State.planesLight_singleton, litTime_singleton]
    exact ⟨k, t, _, Nat.add_lt_add_right hk _, hst, hd, hlast, hopen, hlight⟩
  | succ r ih =>
    obtain ⟨k, t, hk, hst, hd, hdone, hlit⟩ := hI.plane_stretch hpc hx hwin
    obtain ⟨hrow', hlight⟩ := hst.lights_plane hI.legal hrow hlit
    obtain ⟨hpc', hx', hp'⟩ := hdone.next (by rw [hst.cfg]; omega)
    have hopen := hdone.window
    rw [hst.cfg] at hopen
    obtain ⟨k', u, T', hk', hst', hd', hlast, hopen', hlight'⟩ := ih (hst.inv hI) hpc' hx' hopen (by rw [hrow', hd])
      (by rw [hst.cfg, hp']; omega) rfl
    rw [hd, hst.planesEvents] at hst' hk'
    rw [hd, hst.planesLight] at hlight'
    rw [hst.cfg] at hk'
    rw [hps, List.range'_succ, ← hp', State.planesEvents_cons, State.planesLight_cons, litTime_cons, List.length_append]
    exact ⟨k + k', u, T', by omega, hst.trans hst', hd'.trans hd, hlast, hopen', hlight.trans hst hst' hlight'⟩

/-! ### One half-row -/

/-- The active planes, one after the other (R136). -/
theorem activePlanes_eq_range' {n : Nat} {k : BitVec 4} (h : k.toNat ≤ n) : activePlanes n k = List.range' (n - k.toNat) k.toNat := by
  refine (activePlanes_sorted n k).eq_of_mem_iff List.pairwise_lt_range' fun p => ?_
  rw [mem_activePlanes, List.mem_range'_1]
  omega

/-- The active planes of the frame shown. -/
def State.shownPlanes (s : State) : List Nat := activePlanes s.cfg.n (s.settings s.active).pwmBits

theorem Stretch.shownPlanes (h : Stretch k s t es) : t.shownPlanes = s.shownPlanes := by
  rw [State.shownPlanes, h.cfg, h.active, h.settings, State.shownPlanes]

/-- The writes of a row address (R165, R166). -/
abbrev rowAddrEvents (d : BitVec 3) : List Event := [.gpioClr (~~~rowAddr d &&& rowMask), .gpioSet (rowAddr d)]

/-- Neither of them moves clock or strobe. -/
theorem rowAddrEvents_quiet (d : BitVec 3) : ∀ e ∈ rowAddrEvents d, e.mask.getLsbD 17 = false ∧ e.mask.getLsbD 4 = false := by
  revert d
  decide

/-- The state in which the two writes of the row address leave the block (R165, R166). -/
def State.rowSelected (s : State) : State :=
  { s with
    gpio := s.gpio &&& ~~~(~~~rowAddr s.seqD &&& rowMask) ||| rowAddr s.seqD
    trace := s.trace ++ rowAddrEvents s.seqD
    seqP := BitVec.ofNat 4 (s.cfg.n - (s.settings s.active).pwmBits.toNat)
    seqX := 0#16
    seqPc := .colClr }

theorem State.rowSelected_path (hpc : s.seqPc = .rowClr) : SeqPath 2 s s.rowSelected := by
  have hclr : SeqPath 1 s ((s.gpioClr (~~~rowAddr s.seqD &&& rowMask)).goto .rowSet) := .single hpc (by simp) (exec_rowClr s)
  have hset := SeqPath.single (s := (s.gpioClr (~~~rowAddr s.seqD &&& rowMask)).goto .rowSet) (p := .rowSet) rfl (by simp)
    (exec_rowSet _)
  have hend : ({ ((s.gpioClr (~~~rowAddr s.seqD &&& rowMask)).goto .rowSet).gpioSet (rowAddr s.seqD) with
      seqP := BitVec.ofNat 4 (s.cfg.n - (s.settings s.active).pwmBits.toNat), seqX := 0#16 } : State).goto .colClr = s.rowSelected := by
    simp [State.rowSelected, State.goto, State.gpioSet, State.gpioClr]
  exact hend ▸ hclr.trans hset

/-- The row-address lines then select the half-row (R167). -/
theorem State.litRow_rowSelected (s : State) : s.rowSelected.litRow = s.seqD.toNat := by
  have habsorb : s.gpio.extractLsb' 22 3 &&& s.seqD ||| s.seqD = s.seqD := by ext; simp
  rw [State.litRow, State.rowSelected, extract_after_rowSet, extract_after_rowClr, habsorb]

/-- The start of a half-row (R162 step 1): its row address is set, and its first active plane selected. -/
theorem Inv.row_start (hI : Inv s) (hpc : s.seqPc = .rowClr) :
    ∃ t, SeqPath 2 s t ∧ Stretch 2 s t (rowAddrEvents s.seqD) ∧ t.seqPc = .colClr ∧ t.seqX = 0#16 ∧ t.seqD = s.seqD ∧
      t.seqP.toNat = s.cfg.n - (s.settings s.active).pwmBits.toNat ∧ t.litRow = s.seqD.toNat ∧ t.quiescent := by
  have hpath := State.rowSelected_path hpc
  exact ⟨_, hpath, hpath.stretch rfl rfl, rfl, rfl, rfl, hI.firstPlane_toNat, s.litRow_rowSelected,
    hI.quiescent_of_dark (by rw [hpc]; rfl)⟩

/-- The sequencer after half-row `d`: at the next one, or back at the top (R176). -/
structure State.RowDone (s : State) (d : Nat) : Prop where
  quiet : s.quiescent
  last : d = s.cfg.half - 1 → s.seqPc = .top
  next : d ≠ s.cfg.half - 1 → s.seqPc = .rowClr ∧ s.seqD.toNat = d + 1

theorem State.rowDone_afterRow (hl : s.cfg.legal = true) (hd : s.seqD.toNat < s.cfg.half) :
    (s.ptControl .ctlQuiet).afterRow.RowDone s.seqD.toNat := by
  have hframe := (s.ptControl .ctlQuiet).afterRow_frame
  have hcfg : (s.ptControl .ctlQuiet).afterRow.cfg = s.cfg := by rw [hframe]; rfl
  refine ⟨by rw [hframe]; exact ⟨rfl, rfl, rfl, rfl, rfl⟩, fun hlast => ?_, fun hnext => ?_⟩
  · rw [hcfg] at hlast
    rw [State.afterRow_last (s := s.ptControl .ctlQuiet) hlast]
    rfl
  · rw [hcfg] at hnext
    rw [State.afterRow_step (s := s.ptControl .ctlQuiet) hnext]
    exact ⟨rfl, seqD_succ_toNat hl hd hnext⟩

/-- The end of a half-row (R162 step 3): the wait for its last pulse, and the write that makes the timer quiescent. -/
theorem Inv.row_end (hI : Inv s) (hpc : s.seqPc = .rowWait) (hwin : s.Window T) :
    ∃ k t, k ≤ T + 2 ∧ Stretch k s t [.ptWrite (.ctl .ctlQuiet)] ∧ t.RowDone s.seqD.toNat ∧ Lights k s t T 0 fun _ _ _ => 0 := by
  obtain ⟨k, u, hk, hturns, hran, hfifo, hlit⟩ := hwin.wait (.inr hpc)
  have hwait := hran.stretch hturns
  have hkept : u.seqPc = s.seqPc ∧ u.seqD = s.seqD := by
    rw [hran]
    exact ⟨rfl, rfl⟩
  obtain ⟨hupc, hud⟩ := hkept
  have hend : SeqPath 1 u (u.ptControl .ctlQuiet).afterRow := .of_empty hfifo (hupc.trans hpc) (exec_rowWait_done hfifo)
  have hquiet : Stretch 1 u (u.ptControl .ctlQuiet).afterRow [.ptWrite (.ctl .ctlQuiet)] := by
    refine hend.stretch ?_ ?_ <;> rw [State.afterRow_frame] <;> rfl
  have hI' := hwait.inv hI
  refine ⟨k + 1, _, Nat.succ_le_succ hk, hwait.trans hquiet, hud ▸ State.rowDone_afterRow hI'.legal hI'.countersOk.1, ?_⟩
  exact (hran.lights hlit).trans hwait hquiet (hend.lights hquiet (by decide))

/-- One half-row (R162 steps 1 to 3). -/
theorem Inv.row_stretch (hI : Inv s) (hpc : s.seqPc = .rowClr) :
    ∃ k t, k ≤ (rowEvents s.cfg s.mem s.active s.shownPlanes s.seqD.toNat).length + litTime s.cfg s.shownPlanes ∧
      Stretch k s t (rowEvents s.cfg s.mem s.active s.shownPlanes s.seqD.toNat) ∧ t.RowDone s.seqD.toNat ∧
      Lights k s t 0 0 (s.planesLight s.seqD.toNat s.shownPlanes) := by
  obtain ⟨hlow, hhigh⟩ := hI.pwmBits_bounds
  obtain ⟨r, hr⟩ := Nat.exists_eq_add_of_le' hlow
  obtain ⟨a, hpath, hstart, hapc, hax, had, hap, harow, haquiet⟩ := hI.row_start hpc
  have hps : s.shownPlanes = List.range' a.seqP.toNat (r + 1) := by
    rw [State.shownPlanes, activePlanes_eq_range' hhigh, hap, hr]
  obtain ⟨kp, b, T, hkp, hplanes, hbd, hbpc, hopen, hlight⟩ := (hstart.inv hI).planes_stretch r hapc hax
    (.of_quiescent haquiet) (by rw [harow, had]) (by rw [hap, hstart.cfg]; omega) hps
  rw [had, hstart.planesEvents] at hplanes hkp
  rw [had, hstart.planesLight] at hlight
  rw [hstart.cfg] at hkp
  obtain ⟨ke, t, hke, hend, hdone, hdark⟩ := (hplanes.inv (hstart.inv hI)).row_end hbpc hopen
  rw [hbd, had] at hdone
  have hevents : rowEvents s.cfg s.mem s.active s.shownPlanes s.seqD.toNat =
      rowAddrEvents s.seqD ++ s.planesEvents s.seqD.toNat s.shownPlanes ++ [.ptWrite (.ctl .ctlQuiet)] := by
    rw [rowEvents, BitVec.ofNat_toNat, BitVec.setWidth_eq]
    rfl
  have hwhole := (hstart.trans hplanes).trans hend
  have hlights := ((hpath.lights hstart (rowAddrEvents_quiet _)).trans hstart hplanes hlight).trans (hstart.trans hplanes) hend hdark
  simp only [Nat.zero_add, Nat.add_zero] at hlights
  rw [hevents]
  refine ⟨_, t, ?_, hwhole, hdone, hlights⟩
  simp only [List.length_append, List.length_cons, List.length_nil]
  omega

end Sys2Proof.Machine

/-! ## A whole refresh

The half-rows one after the other, from the state in which `TOP` leaves the block. -/

namespace Sys2Proof.Machine

variable {s t u : State} {k d : Nat} {es : List Event} {ds ps : List Nat}

/-- The events of the half-rows `ds` (R162). -/
def State.rowsEvents (s : State) (ds : List Nat) : List Event := ds.flatMap (rowEvents s.cfg s.mem s.active s.shownPlanes)

/-- The ticks for which they light a sub-pixel (R184). -/
def State.rowsLight (s : State) (ds : List Nat) (pin j y : Nat) : Nat := (ds.map fun d => s.planesLight d s.shownPlanes pin j y).sum

theorem State.rowsEvents_cons (s : State) (d : Nat) (ds : List Nat) :
    s.rowsEvents (d :: ds) = rowEvents s.cfg s.mem s.active s.shownPlanes d ++ s.rowsEvents ds := rfl

theorem State.rowsEvents_singleton (s : State) (d : Nat) : s.rowsEvents [d] = rowEvents s.cfg s.mem s.active s.shownPlanes d :=
  List.append_nil _

theorem State.rowsLight_cons (s : State) (d : Nat) (ds : List Nat) :
    s.rowsLight (d :: ds) = fun pin j y => s.planesLight d s.shownPlanes pin j y + s.rowsLight ds pin j y := rfl

theorem State.rowsLight_singleton (s : State) (d : Nat) : s.rowsLight [d] = s.planesLight d s.shownPlanes := rfl

theorem Stretch.rowsEvents (h : Stretch k s t es) : t.rowsEvents = s.rowsEvents := by
  funext ds
  rw [State.rowsEvents, h.cfg, h.mem, h.active, h.shownPlanes, State.rowsEvents]

theorem Stretch.rowsLight (h : Stretch k s t es) : t.rowsLight = s.rowsLight := by
  funext ds pin j y
  rw [State.rowsLight, h.planesLight, h.shownPlanes, State.rowsLight]

/-- From the start of a half-row back to the top (R162). -/
theorem Inv.rows_stretch (r : Nat) (hI : Inv s) (hpc : s.seqPc = .rowClr) (hr : s.seqD.toNat + (r + 1) = s.cfg.half)
    (hds : ds = List.range' s.seqD.toNat (r + 1)) :
    ∃ k t, k ≤ (s.rowsEvents ds).length + (r + 1) * litTime s.cfg s.shownPlanes ∧ Stretch k s t (s.rowsEvents ds) ∧
      t.seqPc = .top ∧ t.quiescent ∧ Lights k s t 0 0 (s.rowsLight ds) := by
  induction r generalizing s ds with
  | zero =>
    obtain ⟨k, t, hk, hst, hdone, hlight⟩ := hI.row_stretch hpc
    have hlast := hdone.last (by rw [hst.cfg]; omega)
    rw [hds, List.range'_one, State.rowsEvents_singleton, State.rowsLight_singleton, Nat.zero_add, Nat.one_mul]
    exact ⟨k, t, hk, hst, hlast, hdone.quiet, hlight⟩
  | succ r ih =>
    obtain ⟨k, t, hk, hst, hdone, hlight⟩ := hI.row_stretch hpc
    obtain ⟨hpc', hd'⟩ := hdone.next (by rw [hst.cfg]; omega)
    obtain ⟨k', u, hk', hst', hlast, hquiet, hlight'⟩ := ih (hst.inv hI) hpc' (by rw [hst.cfg, hd']; omega) rfl
    rw [hst.rowsEvents] at hst' hk'
    rw [hst.rowsLight] at hlight'
    rw [hst.cfg, hst.shownPlanes] at hk'
    rw [hds, List.range'_succ, ← hd', State.rowsEvents_cons, State.rowsLight_cons, List.length_append, Nat.add_mul _ 1, Nat.one_mul]
    exact ⟨k + k', u, by omega, hst.trans hst', hlast, hquiet, hlight.trans hst hst' hlight'⟩

/-- The state in which `TOP` leaves a block that is not to stop (R222). -/
def State.refreshStart (s : State) : State := { s.pickup with seqD := 0#3, seqPc := .rowClr }

theorem State.refreshStart_path (hpc : s.seqPc = .top) (hstop : s.stopFlag = false) : SeqPath 1 s s.refreshStart :=
  .single hpc (by simp) (exec_top_scan hstop)

/-- The pickup and the start of the refresh leave all but the registers of the double buffer and the sequencer (R222). -/
theorem State.refreshStart_pins (s : State) :
    s.refreshStart.cfg = s.cfg ∧ s.refreshStart.mem = s.mem ∧ s.refreshStart.gpio = s.gpio ∧ s.refreshStart.trace = s.trace := by
  rw [State.refreshStart, State.pickup_frame]
  exact ⟨rfl, rfl, rfl, rfl⟩

theorem State.pickup_cfg (s : State) : s.pickup.cfg = s.cfg := by rw [State.pickup_frame]

theorem State.pickup_shownPlanes (s : State) :
    s.pickup.shownPlanes = activePlanes s.cfg.n (s.pickup.settings s.pickup.active).pwmBits := by
  rw [State.shownPlanes, State.pickup_cfg]

theorem State.refreshStart_rowsEvents (s : State) :
    s.refreshStart.rowsEvents (List.range s.cfg.half) = s.pickup.refreshEvents := by
  rw [← s.pickup_cfg]
  rfl

/-- One refresh, from `TOP` to `TOP` (R162, R228): the state it starts the scan-out in, and the scan-out. -/
theorem Inv.refresh_stretch (hI : Inv s) (hpc : s.seqPc = .top) (hstop : s.stopFlag = false) :
    ∃ k t, k ≤ s.pickup.refreshEvents.length + s.cfg.half * litTime s.cfg s.pickup.shownPlanes ∧
      Stretch k s.refreshStart t s.pickup.refreshEvents ∧ t.seqPc = .top ∧ t.quiescent ∧
      Lights k s.refreshStart t 0 0 (s.refreshStart.rowsLight (List.range s.cfg.half)) := by
  have hI' : Inv s.refreshStart := hI.refreshTurns (State.refreshStart_path hpc hstop).refreshTurns
  obtain ⟨hcfg, -⟩ := s.refreshStart_pins
  obtain ⟨r, hr⟩ := Nat.exists_eq_add_of_le' (legal_half hI.legal).1
  have hds : List.range s.cfg.half = List.range' (s.refreshStart.seqD).toNat (r + 1) := by
    rw [hr]
    exact List.range_eq_range'
  obtain ⟨k, t, hk, hst, htop, hquiet, hlight⟩ := hI'.rows_stretch r rfl (by rw [hcfg, hr]; exact Nat.zero_add _) hds
  rw [State.refreshStart_rowsEvents] at hk hst
  rw [hcfg, ← hr] at hk
  exact ⟨k, t, hk, hst, htop, hquiet, hlight⟩

/-- Two states that differ in the registers of the scan-out only, both in the same phase with the timer idle. -/
theorem State.eq_of_scanless (h : t.scanless = s.scanless) (hpc : t.seqPc = s.seqPc) (ht : t.quiescent) (hs : s.quiescent) :
    t = { s with gpio := t.gpio, trace := t.trace, seqD := t.seqD, seqP := t.seqP, seqX := t.seqX, ptRng := t.ptRng,
                 ptStart := t.ptStart, ptHint := t.ptHint, freeCount := t.freeCount } := by
  obtain ⟨hen, hfifo, hhold, hcur, hoe⟩ := ht
  obtain ⟨hen', hfifo', hhold', hcur', hoe'⟩ := hs
  cases s
  cases t
  simp_all [State.scanless]

/-- Settles O43: the turn at `TOP`, then the stretch of the half-rows. -/
theorem refreshRunsTheProcedure : Obligations.RefreshRunsTheProcedure := by
  intro s hI hpc hstop
  obtain ⟨k, t, hk, hst, htop, hquiet, -⟩ := hI.refresh_stretch hpc hstop
  have hstart := State.refreshStart_path hpc hstop
  obtain ⟨-, -, -, htrace⟩ := s.refreshStart_pins
  have hpickup : s.pickup.seqPc = .top ∧ s.pickup.quiescent := by
    rw [State.pickup_frame]
    exact ⟨hpc, hI.quiescent_of_dark (by rw [hpc]; rfl)⟩
  have hbound : litTime s.cfg s.pickup.shownPlanes ≤ (s.pickup.shownPlanes.map fun p => s.cfg.baseTicks * 2 ^ p + 1).sum :=
    List.sum_le_sum fun p _ => Nat.le_succ _
  refine ⟨1 + k, t, (State.refreshTurns_add hstart.refreshTurns).trans hst.turns, htop, ?_,
    State.eq_of_scanless hst.frame (htop.trans hpickup.1.symm) hquiet hpickup.2, ?_⟩
  · rw [hst.trace, htrace]
  · rw [← State.pickup_shownPlanes, Nat.add_assoc]
    exact Nat.add_le_add_left (hk.trans (Nat.add_le_add_left (Nat.mul_le_mul_left _ hbound) _)) 1

/-! ### The light of a refresh -/

/-- A colour line lights different physical rows while different half-rows are selected (R183). -/
theorem physicalRow_inj {c : Config} {pin d d' : Nat} (h : physicalRow c pin d = physicalRow c pin d') : d = d' := by
  unfold physicalRow at h
  split at h <;> omega

/-- The stored bit of a colour line decides whether a plane lights its sub-pixel (R184). -/
theorem State.planeLight_eq (hl : s.cfg.legal = true) {pin x p : Nat} (hpin : pin ∈ s.cfg.colorPins) (hx : x < s.cfg.columns) :
    s.planeLight d p pin (s.cfg.columns - 1 - x) (physicalRow s.cfg pin d) =
      if (s.cellWord d p x).getLsbD pin then s.cfg.baseTicks * 2 ^ p else 0 := by
  have hcolor : colorMask.getLsbD pin = true :=
    (by decide : ∀ i ∈ [7, 8, 9, 10, 11, 27], colorMask.getLsbD i = true) pin (legal_pin_mem hl hpin)
  have hword : (planeRegister s.cfg (s.cellWord d p)).getD (s.cfg.columns - 1 - x) 0#32 = s.cellWord d p x &&& colorMask := by
    rw [List.getD_eq_getElem?_getD, getElem?_planeRegister _ hx, Option.getD_some]
  rw [State.planeLight, hword, BitVec.getLsbD_and, hcolor, Bool.and_true, beq_self_eq_true, Bool.and_true]

/-- In other physical rows it lights nothing. -/
theorem State.planesLight_eq_zero {pin j y : Nat} (h : physicalRow s.cfg pin d ≠ y) : s.planesLight d ps pin j y = 0 := by
  refine List.sum_eq_zero fun n hn => ?_
  obtain ⟨p, -, rfl⟩ := List.mem_map.mp hn
  simp [State.planeLight, h]

/-- A refresh lights a sub-pixel while its own half-row is selected (R184). -/
theorem State.rowsLight_eq (hl : s.cfg.legal = true) {n pin x : Nat} (hd : d < n) (hpin : pin ∈ s.cfg.colorPins)
    (hx : x < s.cfg.columns) :
    s.rowsLight (List.range n) pin (s.cfg.columns - 1 - x) (physicalRow s.cfg pin d) =
      (s.shownPlanes.map fun p => if (s.cellWord d p x).getLsbD pin then s.cfg.baseTicks * 2 ^ p else 0).sum := by
  have hrow : s.rowsLight (List.range n) pin (s.cfg.columns - 1 - x) (physicalRow s.cfg pin d) =
      (List.range n).count d • s.planesLight d s.shownPlanes pin (s.cfg.columns - 1 - x) (physicalRow s.cfg pin d) :=
    List.sum_map_eq_nsmul_single d _ fun d' hne _ => State.planesLight_eq_zero fun h => hne (physicalRow_inj h)
  have hone : (List.range n).count d = 1 := List.count_eq_one_of_mem List.nodup_range (List.mem_range.mpr hd)
  rw [hrow, hone, one_smul, State.planesLight]
  simp only [State.planeLight_eq hl hpin hx]

/-- The pins of a half-panel, and the row that each of them lights while half-row `d` is selected (R8, R183). -/
theorem physicalRow_of_half {c : Config} (hl : c.legal = true) {pin y : Nat}
    (h : (pin ∈ [c.pinR1, c.pinG1, c.pinB1] ∧ y = d) ∨ (pin ∈ [c.pinR2, c.pinG2, c.pinB2] ∧ y = d + c.half)) :
    pin ∈ c.colorPins ∧ physicalRow c pin d = y := by
  have hdisjoint : List.Disjoint [c.pinR1, c.pinG1, c.pinB1] [c.pinR2, c.pinG2, c.pinB2] :=
    List.disjoint_of_nodup_append (legal_pins_distinct hl)
  rcases h with ⟨hpin, rfl⟩ | ⟨hpin, rfl⟩
  · exact ⟨List.mem_append_left _ hpin, if_pos hpin⟩
  · exact ⟨List.mem_append_right [c.pinR1, c.pinG1, c.pinB1] hpin, if_neg fun hupper => hdisjoint hupper hpin⟩

/-- Settles O45: the light of the half-rows, between two closed windows. -/
theorem litTimeIsTheWeightedSum : Obligations.LitTimeIsTheWeightedSum := by
  intro s pn hI hpc hstop hlow hlen
  obtain ⟨k, t, -, hst, htop, -, hlight⟩ := hI.refresh_stretch hpc hstop
  obtain ⟨hcfg, hmem, hgpio, htrace⟩ := s.refreshStart_pins
  have hstart := State.refreshStart_path hpc hstop
  refine ⟨1 + k, t, (State.refreshTurns_add hstart.refreshTurns).trans hst.turns, htop, by rw [hst.trace, htrace],
    fun d x pin y hd hx hpin => ?_⟩
  obtain ⟨hcolor, rfl⟩ := physicalRow_of_half hI.legal hpin
  have hwatch : pn.watch s s.refreshStart = pn := Panel.watch_eq_replay (es := []) pn (by rw [htrace, List.append_nil])
  have hstrobe : s.gpio.getLsbD 4 = false := by
    have hbit := congrArg (BitVec.getLsbD · 4) hlow
    rwa [BitVec.getLsbD_and, (by decide : strobeMask.getLsbD 4 = true), Bool.and_true, BitVec.getLsbD_zero] at hbit
  obtain ⟨-, hlit⟩ := hlight pn ⟨by rw [hlen, hcfg], by rw [hgpio, hstrobe]⟩
  have hticks := hlit pin (s.cfg.columns - 1 - x) (physicalRow s.cfg pin d)
  rw [State.exposure_zero, State.exposure_zero, Nat.add_zero, Nat.zero_add] at hticks
  rw [State.litTicks_add pn hstart.refreshTurns, hstart.litTicks_eq_zero, hwatch, Nat.zero_add, hticks]
  have hsum := State.rowsLight_eq (s := s.refreshStart) (by rw [hcfg]; exact hI.legal) hd (by rw [hcfg]; exact hcolor)
    (by rw [hcfg]; exact hx)
  rw [hcfg] at hsum
  rw [hsum, ← State.pickup_shownPlanes]
  simp only [State.cellWord, hmem, hcfg]
  rfl

end Sys2Proof.Machine
